-- ==== Sys2Proof/Word.lean ====
section
/-! DEFINITION. The number type of the block and the one modular subtraction it uses.

Every width of this hardware is a parameter of the configuration (spec/00_scope.md R8, R9). A RawWord has `P.N` bits, a counter
value or an interval `P.TW` bits, and a time is unbounded (R15): all are naturals here, and a result is cut to a width
only where a rule writes `mod 2^k` (R17). That they stay within their widths is the invariant of Safety.lean. -/

namespace Sys2Proof

/-- `(a - b) mod 2^k`, unsigned (spec/40_classifier.md R101, R110 (a), (f)). -/
def subMod (k a b : Nat) : Nat := (a % 2 ^ k + (2 ^ k - b % 2 ^ k)) % 2 ^ k

end Sys2Proof
end

