-- ==== Sys2Proof/Config.lean ====
section
/-! DEFINITION. The configuration record `P` (spec/00_scope.md R7 to R13), the reference configuration `REF`, and the one
free value of the model. -/

namespace Sys2Proof

/-- The marker of a packet kind: `P.L.X.MASK` and `P.L.X.MATCH` (spec/00_scope.md R11, spec/30_encoding.md R75). -/
structure Marker where
  mask    : Nat
  pattern : Nat
deriving DecidableEq, Repr

/-- Programming: the marker and the shift of each field (spec/30_encoding.md R78). -/
structure ProgLayout where
  marker  : Marker
  command : Nat
  value   : Nat
  address : Nat
deriving DecidableEq, Repr

/-- Controller: the marker and the shift of each field (spec/30_encoding.md R79). -/
structure CtrlLayout where
  marker     : Marker
  address    : Nat
  laneChange : Nat
  throttle   : Nat
  fuelMode   : Nat
deriving DecidableEq, Repr

/-- PaceCar: the marker and the shift of each field (spec/30_encoding.md R80). -/
structure PaceLayout where
  marker      : Marker
  stopped     : Nat
  returnToPit : Nat
  active      : Nat
  fuelMode    : Nat
deriving DecidableEq, Repr

/-- Activity: the marker and the shift of each field (spec/30_encoding.md R81). -/
structure ActLayout where
  marker         : Marker
  controllerMask : Nat
  anyActive      : Nat
deriving DecidableEq, Repr

/-- Acknowledge: the marker and the shift of its field (spec/30_encoding.md R82). -/
structure AckLayout where
  marker   : Marker
  slotMask : Nat
deriving DecidableEq, Repr

/-- `P.L`, the packet layout of the five kinds (spec/00_scope.md R11). -/
structure Layout where
  prog : ProgLayout
  ctrl : CtrlLayout
  pace : PaceLayout
  act  : ActLayout
  ack  : AckLayout
deriving DecidableEq, Repr

/-- The configuration record `P`: everything that differs between machines of this kind, fixed at construction
(spec/00_scope.md R7 to R12; the table of spec/10_state.md R37). -/
structure Config where
  /-- `P.N`, the word width in bits (R8). -/
  n        : Nat
  /-- `P.TW`, the counter width in bits (R9). -/
  tw       : Nat
  /-- The six window bounds (R10). -/
  b0Min    : Nat
  b0Max    : Nat
  b1Min    : Nat
  b1Max    : Nat
  syncMin  : Nat
  syncMax  : Nat
  /-- `P.L` (R11). -/
  layout   : Layout
  /-- `P.INVERTED` (R12): read by the direction of an edge alone, which no rule reads. -/
  inverted : Bool
  /-- `P.PIN` and `P.PIN_MODE` (R12): opaque, read by no rule. -/
  pin      : Nat
  pinMode  : Option Nat
deriving DecidableEq, Repr

/-- The layout of `REF` (the table of spec/30_encoding.md R83). -/
def refLayout : Layout where
  prog := { marker := ⟨0xF000, 0x1000⟩, command := 7, value := 3, address := 0 }
  ctrl := { marker := ⟨0xF000, 0x2000⟩, address := 6, laneChange := 5, throttle := 1, fuelMode := 0 }
  pace := { marker := ⟨0xF000, 0x3000⟩, stopped := 3, returnToPit := 2, active := 1, fuelMode := 0 }
  act  := { marker := ⟨0xF000, 0x4000⟩, controllerMask := 1, anyActive := 0 }
  ack  := { marker := ⟨0xF000, 0x5000⟩, slotMask := 0 }

/-- `REF`, the spec's reference configuration (spec/00_scope.md R13). It exists so that a model can be run and is no
claim about the real protocol (spec/92_eei_decisions.md D30). R13 gives it no `PIN` and no `PIN_MODE`: `pin := 0` and
`pinMode := none` are the model's choice (DESIGN CHOICE, notes/assumptions/1.md); no rule reads either. -/
def REF : Config where
  n := 16
  tw := 32
  b0Min := 80
  b0Max := 120
  b1Min := 180
  b1Max := 220
  syncMin := 1000
  syncMax := 4294967295
  layout := refLayout
  inverted := false
  pin := 0
  pinMode := none

/-- `draw(k)` before it is cut to `k` bits: "an unspecified `k`-bit value chosen by no rule" (spec/00_scope.md R18).
Nothing in Lean can evaluate it. The argument is a counter held in State, so that each draw is a fresh value
(notes/assumptions/3.md). -/
opaque freeDraw : Nat → Nat

end Sys2Proof
end

