-- ==== Sys2Proof/Syntax.lean ====
section
/-! DEFINITION. The operations of the block: one constructor per row of spec/opcode_table.json, the five records the
parse functions return, and the formats in which an operation is presented to the block. -/

namespace Sys2Proof

/-- The operations. The block has no instruction words (spec/30_encoding.md): the rows are command codes, events, interval
classes and pure functions, and each is one constructor here, with the operand its row names. -/
inductive Instr where
  /-- `cmd = 0` (spec/41_control.md R133). -/
  | nop
  /-- `cmd = 1`, the source's `start()` (R130). -/
  | start
  /-- `cmd = 2`, the source's `stop()` (R131). -/
  | stop
  /-- `cmd = 3`, the source's `reset()` (R132). -/
  | clear
  /-- `cmd = 4`, the source's `read()` (spec/42_read.md R140). -/
  | read
  /-- `cmd = 5`, the source's `read(timeout_us)`; `tmo` is the operand `cmd_arg` (R142). -/
  | readT (tmo : Nat)
  /-- `cmd = 6`, reserved: a NOP (spec/41_control.md R133). -/
  | reserved6
  /-- `cmd = 7`, reserved: a NOP (R133). -/
  | reserved7
  /-- Time passes and nothing else happens (spec/42_read.md R146). -/
  | tick
  /-- The EdgeTimer callback; `level` is the pin's raw level after the transition (spec/40_classifier.md R100, R101). -/
  | edge (level : Bool)
  /-- An edge `dt` microseconds after the last delivered one, `dt` in the SYNC window (R103). -/
  | sync (dt : Nat)
  /-- The same with `dt` in the BIT_0 window (R104). -/
  | bit0 (dt : Nat)
  /-- The same with `dt` in the BIT_1 window (R105). -/
  | bit1 (dt : Nat)
  /-- The same with `dt` in none of the three windows (R107). -/
  | glitch (dt : Nat)
  /-- The bit edge `dt` microseconds after the last delivered one that completes the word `a` (R106). -/
  | publish (a : Nat) (dt : Nat)
  /-- `parse_prog(w)` (spec/43_decoder.md R161). -/
  | parseProg (w : Nat)
  /-- `parse_ctrl(w)` (R162). -/
  | parseCtrl (w : Nat)
  /-- `parse_pace(w)` (R163). -/
  | parsePace (w : Nat)
  /-- `parse_act(w)` (R164). -/
  | parseAct (w : Nat)
  /-- `parse_ack(w)` (R165). -/
  | parseAck (w : Nat)
  /-- `rst = 1`, the hardware reset (spec/70_reset_and_hazards.md R200). -/
  | reset
deriving DecidableEq, Repr

/-- The record of a Programming packet; field widths are those of spec/30_encoding.md R78. -/
structure Programming where
  command : BitVec 5
  value   : BitVec 4
  address : BitVec 3
deriving DecidableEq, Repr

/-- The record of a Controller packet (spec/30_encoding.md R79). -/
structure Controller where
  address    : BitVec 3
  laneChange : Bool
  throttle   : BitVec 4
  fuelMode   : Bool
deriving DecidableEq, Repr

/-- The record of a PaceCar packet (spec/30_encoding.md R80). -/
structure PaceCar where
  stopped     : Bool
  returnToPit : Bool
  active      : Bool
  fuelMode    : Bool
deriving DecidableEq, Repr

/-- The record of an Activity packet (spec/30_encoding.md R81). -/
structure Activity where
  controllerMask : BitVec 6
  anyActive      : Bool
deriving DecidableEq, Repr

/-- The record of an Acknowledge packet (spec/30_encoding.md R82). -/
structure Acknowledge where
  slotMask : BitVec 8
deriving DecidableEq, Repr

/-- The five packet kinds, in the order of the table. -/
inductive Kind where
  | prog | ctrl | pace | act | ack
deriving DecidableEq, Repr

/-- The four classes of an interval (spec/30_encoding.md R72). -/
inductive IntervalClass where
  | sync | bit0 | bit1 | glitch
deriving DecidableEq, Repr

/-- The formats in which an operation is presented: `command`, `interval` and `packet` of spec/30_encoding.md R70; `event`
for the ports `rst`, `edge_valid`, `edge_level` of spec/70_reset_and_hazards.md R213 (R91 for the level); `call` for a parse
function named by its caller, as the signatures of R88 have it. -/
inductive Format where
  | command | event | interval | packet | call
deriving DecidableEq, Repr

/-- One presentation: a format and the number its bits spell, bit 0 the least significant. The bit layout of each format
is at the head of Decode.lean (notes/assumptions/8.md). -/
structure Record where
  format : Format
  bits   : Nat
deriving DecidableEq, Repr

/-- The sequencing state `(synced, idx)` that plays the program counter's part (spec/10_state.md R31), with the accumulator.
The decoder reads it because the table's encoding of PUBLISH is "BIT_0 or BIT_1 taken with S.synced = 1 and S.idx = P.N-1". -/
structure Seq where
  synced : Bool
  idx    : Nat
  acc    : Nat
deriving DecidableEq, Repr

/-- The sequencing state after reset: hunting (spec/10_state.md R31, R34). -/
def Seq.hunting : Seq := ⟨false, 0, 0⟩

end Sys2Proof
end

