-- ==== Sys2Proof/WellFormed.lean ====
section
/-! DEFINITION. When a configuration is one of this block (spec/00_scope.md R8, R9; spec/30_encoding.md R73, R77), and when an
operation is one that its format can carry. -/

namespace Sys2Proof

/-- The bits of the word that a field of width `w` at shift `s` covers, as a mask. -/
def fieldMask (s w : Nat) : Nat := (2 ^ w - 1) <<< s

/-- No two masks of the list share a bit. -/
def disjointMasks : List Nat → Bool
  | [] => true
  | m :: ms => ms.all (fun x => m &&& x == 0) && disjointMasks ms

/-- R77 (a), (b): the marker lies in the word, is not empty, its pattern lies in its mask and is not 0. -/
def Marker.wf (n : Nat) (m : Marker) : Bool :=
  decide (m.mask < 2 ^ n) && m.mask != 0 && m.pattern &&& m.mask == m.pattern && m.pattern != 0

/-- R77 for one kind: the marker is well formed, every field `(shift, width)` lies inside the word (c), and the fields
overlap neither each other nor the marker's mask (d). -/
def kindWf (n : Nat) (m : Marker) (fields : List (Nat × Nat)) : Bool :=
  m.wf n && fields.all (fun f => decide (f.1 + f.2 ≤ n)) &&
    disjointMasks (m.mask :: fields.map (fun f => fieldMask f.1 f.2))

/-- The fields of each kind as `(shift, width)`; the widths are those of spec/30_encoding.md R78 to R82. -/
def ProgLayout.fields (l : ProgLayout) : List (Nat × Nat) := [(l.command, 5), (l.value, 4), (l.address, 3)]
@[inherit_doc ProgLayout.fields]
def CtrlLayout.fields (l : CtrlLayout) : List (Nat × Nat) :=
  [(l.address, 3), (l.laneChange, 1), (l.throttle, 4), (l.fuelMode, 1)]
@[inherit_doc ProgLayout.fields]
def PaceLayout.fields (l : PaceLayout) : List (Nat × Nat) :=
  [(l.stopped, 1), (l.returnToPit, 1), (l.active, 1), (l.fuelMode, 1)]
@[inherit_doc ProgLayout.fields]
def ActLayout.fields (l : ActLayout) : List (Nat × Nat) := [(l.controllerMask, 6), (l.anyActive, 1)]
@[inherit_doc ProgLayout.fields]
def AckLayout.fields (l : AckLayout) : List (Nat × Nat) := [(l.slotMask, 8)]

/-- The layout's constraints, kind by kind (spec/30_encoding.md R77). -/
def Layout.wf (n : Nat) (l : Layout) : Bool :=
  kindWf n l.prog.marker l.prog.fields && kindWf n l.ctrl.marker l.ctrl.fields &&
    kindWf n l.pace.marker l.pace.fields && kindWf n l.act.marker l.act.fields &&
    kindWf n l.ack.marker l.ack.fields

/-- `lo ≤ dt ≤ hi`: a closed window (spec/30_encoding.md R71). -/
def inWindow (lo hi dt : Nat) : Bool := decide (lo ≤ dt) && decide (dt ≤ hi)

/-- Two closed windows share no interval. -/
def windowsApart (lo hi lo' hi' : Nat) : Bool := decide (hi < lo') || decide (hi' < lo)

/-- The interval windows' constraints (spec/30_encoding.md R73 (a), (b), (c)). -/
def Config.windowsWf (P : Config) : Bool :=
  decide (P.b0Min ≤ P.b0Max) && decide (P.b1Min ≤ P.b1Max) && decide (P.syncMin ≤ P.syncMax) &&
    decide (P.syncMax ≤ 2 ^ P.tw - 1) &&
    windowsApart P.b0Min P.b0Max P.b1Min P.b1Max &&
    decide (P.b0Max < P.syncMin) && decide (P.b1Max < P.syncMin)

/-- `P` is a configuration of this block: R8 (`P.N ≥ 13`), R9 (`P.TW` positive), R73 and R77. A configuration that is not is
refused (spec/93_implementation_defined.md U8). -/
def Config.wf (P : Config) : Bool :=
  decide (13 ≤ P.n) && decide (1 ≤ P.tw) && P.windowsWf && P.layout.wf P.n

/-- `dt` is a `P.TW`-bit value in none of the three windows (spec/30_encoding.md R72). -/
def isGlitchInterval (P : Config) (dt : Nat) : Bool :=
  decide (dt < 2 ^ P.tw) && !inWindow P.syncMin P.syncMax dt && !inWindow P.b0Min P.b0Max dt &&
    !inWindow P.b1Min P.b1Max dt

/-- An operation whose operand its format can carry: an unsigned `P.TW`-bit timeout (spec/42_read.md R142), an interval in the
window its class names (spec/30_encoding.md R72), a `P.N`-bit word (spec/43_decoder.md R160). -/
def Instr.wf (P : Config) : Instr → Bool
  | .nop => true
  | .start => true
  | .stop => true
  | .clear => true
  | .read => true
  | .readT tmo => decide (tmo < 2 ^ P.tw)
  | .reserved6 => true
  | .reserved7 => true
  | .tick => true
  | .edge _ => true
  | .sync dt => inWindow P.syncMin P.syncMax dt
  | .bit0 dt => inWindow P.b0Min P.b0Max dt
  | .bit1 dt => inWindow P.b1Min P.b1Max dt
  | .glitch dt => isGlitchInterval P dt
  | .publish a dt =>
    decide (a < 2 ^ P.n) && (if a % 2 = 0 then inWindow P.b0Min P.b0Max dt else inWindow P.b1Min P.b1Max dt)
  | .parseProg w => decide (w < 2 ^ P.n)
  | .parseCtrl w => decide (w < 2 ^ P.n)
  | .parsePace w => decide (w < 2 ^ P.n)
  | .parseAct w => decide (w < 2 ^ P.n)
  | .parseAck w => decide (w < 2 ^ P.n)
  | .reset => true

/-- The next bit completes a word: "S.synced = 1 and S.idx = P.N-1", the table's encoding of PUBLISH. -/
def Seq.completes (P : Config) (q : Seq) : Bool := q.synced && decide (q.idx + 1 = P.n)

/-- An operation that can be presented when the sequencing state is `q`: it is well formed, a bit interval is a BIT_0 or
BIT_1 where it does not complete the word and a PUBLISH where it does, and the word published is the accumulator with
that bit shifted in (spec/40_classifier.md R104 to R106). -/
def Instr.wfIn (P : Config) (q : Seq) (i : Instr) : Bool :=
  i.wf P &&
    match i with
    | .bit0 _ => !q.completes P
    | .bit1 _ => !q.completes P
    | .publish a _ => q.completes P && decide (a = (2 * q.acc + a % 2) % 2 ^ P.n)
    | _ => true

end Sys2Proof
end

