-- ==== Sys2Proof/Decode.lean ====
section
/-! DEFINITION. The encodings of spec/30_encoding.md: the interval classes, the marker test and the field extraction, the
presentation records and their decoder, and after it the encoder.

Bit layout of a record, bit 0 the least significant (notes/assumptions/8.md):
* `command`: `cmd` in bits 2..0, `cmd_arg` in bits `TW+2`..3 (R86);
* `event`: `rst` in bit 0, `edge_valid` in bit 1, `edge_level` in bit 2 (spec/70_reset_and_hazards.md R213, R91);
* `interval`: `dt` in bits `TW-1`..0 (R70, R71);
* `packet`: the word in bits `N-1`..0 (R70, R75);
* `call`: the number of the parse function in bits 2..0, the word in bits `N+2`..3 (R88). -/

namespace Sys2Proof

/-- The class of an interval (spec/30_encoding.md R72), total. -/
def classify (P : Config) (dt : Nat) : IntervalClass :=
  if inWindow P.syncMin P.syncMax dt then .sync
  else if inWindow P.b0Min P.b0Max dt then .bit0
  else if inWindow P.b1Min P.b1Max dt then .bit1
  else .glitch

/-- The accumulator with the bit `b` shifted in at the bottom: `((acc << 1) | b) mod 2^P.N` (spec/20_memory.md R51,
spec/40_classifier.md R104, R105, R110 (c)). -/
def shiftIn (P : Config) (acc : Nat) (b : Bool) : Nat := ((acc <<< 1) ||| b.toNat) % 2 ^ P.n

/-- The word's marker bits equal the kind's pattern: `(w & MASK) = MATCH` (spec/30_encoding.md R75). -/
def Marker.matches (m : Marker) (w : Nat) : Bool := w &&& m.mask == m.pattern

/-- The marker of a kind. -/
def Layout.marker (l : Layout) : Kind → Marker
  | .prog => l.prog.marker
  | .ctrl => l.ctrl.marker
  | .pace => l.pace.marker
  | .act => l.act.marker
  | .ack => l.ack.marker

/-- `field(w, s, W) = (w >> s) mod 2^W` (spec/30_encoding.md R76). -/
def field (w : Nat) (s width : Nat) : Nat := (w >>> s) % 2 ^ width

/-- A field as the unsigned number of its width. -/
def fieldBits (w : Nat) (s width : Nat) : BitVec width := BitVec.ofNat width (field w s width)

/-- A Boolean field: true exactly when the extracted bit is 1 (spec/30_encoding.md R92). -/
def fieldBool (w : Nat) (s : Nat) : Bool := field w s 1 == 1

/-- Why a record is no operation. Each is raised by `decode`. -/
inductive DecodeError where
  /-- A command record wider than the 3 bits of `cmd` and the `TW` bits of `cmd_arg`. -/
  | commandTooWide
  /-- An event record wider than its three bits. -/
  | eventTooWide
  /-- An interval record wider than the counter. -/
  | intervalTooWide
  /-- A packet or call record whose word is wider than `P.N` bits. -/
  | wordTooWide
  /-- A call record that names none of the five parse functions. -/
  | noSuchFunction
  /-- A packet record whose marker bits match no kind: not illegal, all five parses fail (spec/30_encoding.md R85 (b)). -/
  | noKind (w : Nat)
deriving DecidableEq, Repr

/-- The operation of a command code (the table of spec/30_encoding.md R86); only the low three bits of `cmd` count. -/
def commandInstr (cmd arg : Nat) : Instr :=
  match cmd % 8 with
  | 0 => .nop
  | 1 => .start
  | 2 => .stop
  | 3 => .clear
  | 4 => .read
  | 5 => .readT arg
  | 6 => .reserved6
  | _ => .reserved7

/-- A command record (R86). `cmd_arg` is ignored but for READ_T. -/
def decodeCommand (P : Config) (bits : Nat) : Except DecodeError Instr :=
  if bits < 2 ^ (3 + P.tw) then .ok (commandInstr (bits % 8) (bits / 8)) else .error .commandTooWide

/-- An event record: `rst` before all else, then `edge_valid`, else a TICK (spec/70_reset_and_hazards.md R213). -/
def decodeEvent (bits : Nat) : Except DecodeError Instr :=
  if bits < 8 then
    .ok (if bits % 2 = 1 then .reset
      else if bits / 2 % 2 = 1 then .edge (bits / 4 == 1)
      else .tick)
  else .error .eventTooWide

/-- A bit interval in the sequencing state `q`: PUBLISH where the bit completes the word (the table's encoding of that
row), else the bit. -/
def decodeBit (P : Config) (q : Seq) (b : Bool) (dt : Nat) : Instr :=
  if q.completes P then .publish (shiftIn P q.acc b) dt
  else if b then .bit1 dt
  else .bit0 dt

/-- An interval record (R71, R72). -/
def decodeInterval (P : Config) (q : Seq) (dt : Nat) : Except DecodeError Instr :=
  if dt < 2 ^ P.tw then
    .ok (match classify P dt with
      | .sync => .sync dt
      | .bit0 => decodeBit P q false dt
      | .bit1 => decodeBit P q true dt
      | .glitch => .glitch dt)
  else .error .intervalTooWide

/-- The parse function of a kind applied to a word. -/
def parseInstr (k : Kind) (w : Nat) : Instr :=
  match k with
  | .prog => .parseProg w
  | .ctrl => .parseCtrl w
  | .pace => .parsePace w
  | .act => .parseAct w
  | .ack => .parseAck w

/-- The five kinds in the table's order. -/
def kinds : List Kind := [.prog, .ctrl, .pace, .act, .ack]

/-- A packet record: the parse function of the first kind of the table whose marker the word carries. A layout may let
a word match two kinds (spec/43_decoder.md R171); the others are reached by a call record (notes/assumptions/11.md). -/
def decodePacket (P : Config) (w : Nat) : Except DecodeError Instr :=
  if w < 2 ^ P.n then
    match kinds.find? (fun k => (P.layout.marker k).matches w) with
    | some k => .ok (parseInstr k w)
    | none => .error (.noKind w)
  else .error .wordTooWide

/-- A call record: any parse function on any word (spec/43_decoder.md R167). -/
def decodeCall (P : Config) (bits : Nat) : Except DecodeError Instr :=
  if bits / 8 < 2 ^ P.n then
    match bits % 8 with
    | 0 => .ok (.parseProg (bits / 8))
    | 1 => .ok (.parseCtrl (bits / 8))
    | 2 => .ok (.parsePace (bits / 8))
    | 3 => .ok (.parseAct (bits / 8))
    | 4 => .ok (.parseAck (bits / 8))
    | _ => .error .noSuchFunction
  else .error .wordTooWide

/-- The operation that a record presents to a block of configuration `P` whose sequencing state is `q`. -/
def decode (P : Config) (q : Seq) (r : Record) : Except DecodeError Instr :=
  match r.format with
  | .command => decodeCommand P r.bits
  | .event => decodeEvent r.bits
  | .interval => decodeInterval P q r.bits
  | .packet => decodePacket P r.bits
  | .call => decodeCall P r.bits

/-- The record of an operation, from the same layouts. PUBLISH is the bit interval that completes its word. -/
def encode : Instr → Record
  | .nop => ⟨.command, 0⟩
  | .start => ⟨.command, 1⟩
  | .stop => ⟨.command, 2⟩
  | .clear => ⟨.command, 3⟩
  | .read => ⟨.command, 4⟩
  | .readT tmo => ⟨.command, 5 + 8 * tmo⟩
  | .reserved6 => ⟨.command, 6⟩
  | .reserved7 => ⟨.command, 7⟩
  | .tick => ⟨.event, 0⟩
  | .edge level => ⟨.event, 2 + 4 * level.toNat⟩
  | .sync dt => ⟨.interval, dt⟩
  | .bit0 dt => ⟨.interval, dt⟩
  | .bit1 dt => ⟨.interval, dt⟩
  | .glitch dt => ⟨.interval, dt⟩
  | .publish _ dt => ⟨.interval, dt⟩
  | .parseProg w => ⟨.call, 8 * w⟩
  | .parseCtrl w => ⟨.call, 1 + 8 * w⟩
  | .parsePace w => ⟨.call, 2 + 8 * w⟩
  | .parseAct w => ⟨.call, 3 + 8 * w⟩
  | .parseAck w => ⟨.call, 4 + 8 * w⟩
  | .reset => ⟨.event, 1⟩

/-- The number of bits a record of each format has. -/
def Format.width (P : Config) : Format → Nat
  | .command => 3 + P.tw
  | .event => 3
  | .interval => P.tw
  | .packet => P.n
  | .call => 3 + P.n

/-- The word of a packet with the given fields, every ignored bit 0: the helper `encode_X` (spec/30_encoding.md R84). The
block has no transmit side; it serves statements and tests. -/
def encodeProg (P : Config) (r : Programming) : Nat :=
  P.layout.prog.marker.pattern ||| r.command.toNat <<< P.layout.prog.command |||
    r.value.toNat <<< P.layout.prog.value ||| r.address.toNat <<< P.layout.prog.address
@[inherit_doc encodeProg]
def encodeCtrl (P : Config) (r : Controller) : Nat :=
  P.layout.ctrl.marker.pattern ||| r.address.toNat <<< P.layout.ctrl.address |||
    r.laneChange.toNat <<< P.layout.ctrl.laneChange ||| r.throttle.toNat <<< P.layout.ctrl.throttle |||
    r.fuelMode.toNat <<< P.layout.ctrl.fuelMode
@[inherit_doc encodeProg]
def encodePace (P : Config) (r : PaceCar) : Nat :=
  P.layout.pace.marker.pattern ||| r.stopped.toNat <<< P.layout.pace.stopped |||
    r.returnToPit.toNat <<< P.layout.pace.returnToPit ||| r.active.toNat <<< P.layout.pace.active |||
    r.fuelMode.toNat <<< P.layout.pace.fuelMode
@[inherit_doc encodeProg]
def encodeAct (P : Config) (r : Activity) : Nat :=
  P.layout.act.marker.pattern ||| r.controllerMask.toNat <<< P.layout.act.controllerMask |||
    r.anyActive.toNat <<< P.layout.act.anyActive
@[inherit_doc encodeProg]
def encodeAck (P : Config) (r : Acknowledge) : Nat :=
  P.layout.ack.marker.pattern ||| r.slotMask.toNat <<< P.layout.ack.slotMask

/-- A table row's word as a record: the rows of one byte are the command codes (`cmd_arg` above them 0), the wider ones
the packets of the `REF` layout (DESIGN CHOICE, notes/assumptions/8.md). -/
def tableRecord (nbits w : Nat) : Record :=
  if nbits ≤ 8 then ⟨.command, w⟩ else ⟨.packet, w⟩

/-- The instruction the decoder reads from a table row's word, at `REF`, hunting. -/
def decodeTableWord (nbits w : Nat) : Option Instr :=
  (decode REF .hunting (tableRecord nbits w)).toOption

end Sys2Proof
end

