-- ==== Sys2Proof/Machine/State.lean ====
section
/-! DEFINITION. The state of the block (spec/10_state.md R20 to R27, R34) with what the model adds to run it from one state to
the next: the configuration, the time, the script of what the environment presents, and the outputs delivered. -/

namespace Sys2Proof.Machine

/-- The pending read of the one consumer (spec/10_state.md R27). A timed read holds the time `t0` it was issued and its timeout
`tmo`, with the deadline `tau_d = t0 + tmo` (notes/assumptions/14.md); the port-level registers `rd_t0` and `rd_tmo` are
fields of the state. -/
inductive PendingRead where
  | none
  | untimed
  | timed (t0 : Nat) (tmo : Nat)
deriving DecidableEq, Repr

/-- The result of a read (spec/30_encoding.md R87). -/
inductive ReadResult where
  | word (w : Nat)
  | noData
deriving DecidableEq, Repr

/-- The result of a parse call: the record, or absent (spec/43_decoder.md R160, R170). -/
inductive ParseResult where
  | prog (r : Option Programming)
  | ctrl (r : Option Controller)
  | pace (r : Option PaceCar)
  | act (r : Option Activity)
  | ack (r : Option Acknowledge)
deriving DecidableEq, Repr

/-- What leaves the block (spec/00_scope.md R19): a read result with the time at which it is emitted, and the result of a
parse call. Nothing else does. -/
inductive Output where
  | done (tau : Nat) (r : ReadResult)
  | parsed (r : ParseResult)
deriving DecidableEq, Repr

/-- One thing the environment presents: the time of it and the record (spec/30_encoding.md R89). For an interval record the
time is the earliest at which the edge may come (notes/assumptions/9.md). -/
structure Stimulus where
  tau    : Nat
  record : Record
deriving DecidableEq, Repr

/-- The conditions of the block (the table of spec/60_exceptions.md R180). None transfers control. -/
inductive Condition where
  | glitch | incompleteWordDiscarded | overrun | zeroWord | kindMismatch | noData | misuse
deriving DecidableEq, Repr

/-- The direction of an edge (spec/40_classifier.md R111); read by no rule. -/
inductive Direction where
  | rise | fall
deriving DecidableEq, Repr

/-- The state. -/
@[ext]
structure State where
  /-- The configuration `P`, constant from construction on (spec/00_scope.md R7): carried here because the step takes nothing
  else; no operation writes it (notes/assumptions/1.md). -/
  cfg          : Config
  /-- `S.running` (R25). -/
  running      : Bool
  /-- `S.synced` (R26). -/
  synced       : Bool
  /-- `S.acc` (R21), `P.N` bits. -/
  acc          : Nat
  /-- `S.idx` (R22), `0 .. P.N-1`. -/
  idx          : Nat
  /-- `S.last_edge_time` (R23), `P.TW` bits. -/
  lastEdgeTime : Nat
  /-- `S.slot` (R24), `P.N` bits; 0 is empty. -/
  slot         : Nat
  /-- `S.rd` (R27). -/
  rd           : PendingRead
  /-- The register `rd_t0` of the port-level rendering, `P.TW` bits: "the value of `now` when the read was issued" (R27).
  That an untimed read loads it too is the model's choice (DESIGN CHOICE, notes/assumptions/28.md). -/
  rdT0         : Nat
  /-- The register `rd_tmo` of the port-level rendering, `P.TW` bits: the timeout of the last timed read issued (R27;
  notes/assumptions/28.md). -/
  rdTmo        : Nat
  /-- The time of the event in hand, the EdgeTimer's (spec/00_scope.md R15): an input of the block, held by the model. -/
  tau          : Nat
  /-- What the environment has still to present, in order (notes/assumptions/5.md). -/
  input        : List Stimulus
  /-- What has left the block, oldest first (notes/assumptions/15.md). -/
  out          : List Output
  /-- How many free values have been drawn (notes/assumptions/3.md). -/
  draws        : Nat
deriving DecidableEq, Repr

/-- The machine's faults: there is none. The block has no trap mechanism, "no condition transfers control, saves state or
sets a cause register" (spec/60_exceptions.md), and it "accepts events for ever" (spec/70_reset_and_hazards.md R216). -/
inductive Fault where
deriving DecidableEq, Repr

/-- Why a step is refused. All of these are safe: the run has no meaning from that step on, and nothing is claimed. -/
inductive Refusal where
  /-- Raised by `exec` for an instruction that has no meaning yet. Safe. -/
  | notModelled (mnemonic : String)
  /-- Raised by READ and READ_T while `running = 0`: "a model refuses the run at that event" (spec/42_read.md R141,
  spec/93_implementation_defined.md U1). Safe. -/
  | misuse
  /-- Raised by `step` when the configuration is not one of this block (spec/93_implementation_defined.md U8). Safe. -/
  | badConfig
  /-- Raised by `step` when the environment presents a time before the last one (spec/93_implementation_defined.md U9). Safe. -/
  | timeReversed
  /-- Raised by `step` when a record is too wide for its format's port, or names no parse function. Safe. -/
  | undecodable (e : DecodeError)
deriving DecidableEq, Repr

/-- The state right after hardware reset (spec/10_state.md R34) of a block of configuration `P`, whose unspecified
`last_edge_time` is `t`; nothing to present, nothing delivered, at the origin of time. R34 gives no value for the registers
`rd_t0` and `rd_tmo`; 0 is the model's (DESIGN CHOICE, notes/assumptions/28.md). -/
def State.resetOf (P : Config) (t : Nat) : State where
  cfg := P
  running := false
  synced := false
  acc := 0
  idx := 0
  lastEdgeTime := t
  slot := 0
  rd := .none
  rdT0 := 0
  rdTmo := 0
  tau := 0
  input := []
  out := []
  draws := 0

/-- The state right after reset of the reference configuration. `last_edge_time` is unspecified there; the value 0 is the
model's (notes/assumptions/2.md). -/
def State.reset : State := .resetOf REF 0

/-- The sequencing state (spec/10_state.md R31). -/
def State.seq (s : State) : Seq := ⟨s.synced, s.idx, s.acc⟩

end Sys2Proof.Machine
end

