-- ==== Sys2Proof/Machine/Operands.lean ====
section
/-! DEFINITION. What an operation reads: the counter, the interval, the edge's direction, the time at which a presented edge
comes, and the fields of a packet. -/

namespace Sys2Proof.Machine

/-- The counter at a time: `tau mod 2^P.TW` (spec/00_scope.md R15, spec/60_exceptions.md R193). -/
def counterAt (P : Config) (tau : Nat) : Nat := tau % 2 ^ P.tw

/-- `now`, the counter value the event in hand reads. -/
def State.now (s : State) : Nat := counterAt s.cfg s.tau

/-- `dt = (now - last_edge_time) mod 2^P.TW` (spec/40_classifier.md R101). -/
def State.interval (s : State) : Nat := subMod s.cfg.tw s.now s.lastEdgeTime

/-- `dir` (spec/40_classifier.md R111): computed from the level and the polarity, and read by no rule. -/
def edgeDirection (P : Config) (level : Bool) : Direction :=
  if level != P.inverted then .rise else .fall

/-- The first time from `t` on at which the interval since the last delivered edge is `dt`: when an edge presented by its
interval comes (notes/assumptions/9.md). -/
def edgeTime (s : State) (t : Nat) (dt : Nat) : Nat :=
  t + subMod s.cfg.tw (s.lastEdgeTime + dt) t

/-- The deadline of a timed read, on the axis of time (spec/10_state.md R27, spec/42_read.md R142). -/
def deadline (t0 : Nat) (tmo : Nat) : Nat := t0 + tmo

/-- `parse_prog` (spec/43_decoder.md R161): the record, or absent where the marker does not match. -/
def parseProg (P : Config) (w : Nat) : Option Programming :=
  let l := P.layout.prog
  if l.marker.matches w then
    some { command := fieldBits w l.command 5, value := fieldBits w l.value 4, address := fieldBits w l.address 3 }
  else none

/-- `parse_ctrl` (spec/43_decoder.md R162). -/
def parseCtrl (P : Config) (w : Nat) : Option Controller :=
  let l := P.layout.ctrl
  if l.marker.matches w then
    some { address := fieldBits w l.address 3, laneChange := fieldBool w l.laneChange,
           throttle := fieldBits w l.throttle 4, fuelMode := fieldBool w l.fuelMode }
  else none

/-- `parse_pace` (spec/43_decoder.md R163). -/
def parsePace (P : Config) (w : Nat) : Option PaceCar :=
  let l := P.layout.pace
  if l.marker.matches w then
    some { stopped := fieldBool w l.stopped, returnToPit := fieldBool w l.returnToPit,
           active := fieldBool w l.active, fuelMode := fieldBool w l.fuelMode }
  else none

/-- `parse_act` (spec/43_decoder.md R164); `anyActive` is a bit of the word, not derived from the mask. -/
def parseAct (P : Config) (w : Nat) : Option Activity :=
  let l := P.layout.act
  if l.marker.matches w then
    some { controllerMask := fieldBits w l.controllerMask 6, anyActive := fieldBool w l.anyActive }
  else none

/-- `parse_ack` (spec/43_decoder.md R165). -/
def parseAck (P : Config) (w : Nat) : Option Acknowledge :=
  let l := P.layout.ack
  if l.marker.matches w then some { slotMask := fieldBits w l.slotMask 8 } else none

/-- The parse function of a kind. -/
def parseOf (P : Config) (k : Kind) (w : Nat) : ParseResult :=
  match k with
  | .prog => .prog (parseProg P w)
  | .ctrl => .ctrl (parseCtrl P w)
  | .pace => .pace (parsePace P w)
  | .act => .act (parseAct P w)
  | .ack => .ack (parseAck P w)

/-- The `success` flag of a parse (spec/43_decoder.md R160): a function of the argument, stored nowhere. -/
def ParseResult.success : ParseResult → Bool
  | .prog r => r.isSome
  | .ctrl r => r.isSome
  | .pace r => r.isSome
  | .act r => r.isSome
  | .ack r => r.isSome

/-- The software encoding of a read result: a word is its value, `NoData` is -1 (spec/30_encoding.md R87). -/
def ReadResult.toInt : ReadResult → Int
  | .word w => (w : Int)
  | .noData => -1

end Sys2Proof.Machine
end

