-- ==== Sys2Proof/Machine/Flags.lean ====
section
/-! DEFINITION. The status signals (spec/10_state.md R29, R37), the port-level view of the pending read (R27), and the
conditions an edge raises (spec/60_exceptions.md R180). The block has no condition codes. -/

namespace Sys2Proof.Machine

/-- `irq_en = S.running` (spec/10_state.md R37). -/
def State.irqEn (s : State) : Bool := s.running

/-- `slot_valid = (S.slot != 0)` (spec/10_state.md R29). -/
def State.slotValid (s : State) : Bool := s.slot != 0

/-- `rd_busy = (S.rd != NONE)` (spec/10_state.md R29). -/
def State.rdBusy (s : State) : Bool := s.rd != .none

/-- The register `rd_pending` of the port-level rendering (spec/10_state.md R27). -/
def State.rdPending (s : State) : Bool := s.rd != .none

/-- The register `rd_timed` (R27). Its value while no read is pending, as at reset, is stated nowhere: 0 there is the model's
choice (DESIGN CHOICE, notes/assumptions/28.md). -/
def State.rdTimed (s : State) : Bool :=
  match s.rd with
  | .timed _ _ => true
  | .none => false
  | .untimed => false

/-- The port-level test for a timeout, on the registers: a timed read is pending and `(now - rd_t0) mod 2^P.TW >= rd_tmo`
(spec/10_state.md R27, spec/42_read.md R142, R151). -/
def State.timedOutAtPorts (s : State) : Bool :=
  s.rdTimed && decide (s.rdTmo ≤ subMod s.cfg.tw s.now s.rdT0)

/-- A condition the block keeps to itself: no code, no flag, no output (spec/60_exceptions.md R180, R181, R187). -/
def Condition.silent : Condition → Bool
  | .glitch => true
  | .incompleteWordDiscarded => true
  | .overrun => true
  | .zeroWord => true
  | .kindMismatch => false
  | .noData => false
  | .misuse => false

/-- The conditions of a bit that completes the word `a` in `s`: `Overrun` over an unread word, `ZeroWord` for 0
(spec/60_exceptions.md R180). -/
def publicationConditions (s : State) (a : Nat) : List Condition :=
  (if s.slotValid then [.overrun] else []) ++ (if a = 0 then [.zeroWord] else [])

/-- The conditions that a delivered edge of a class raises in the state before it (spec/60_exceptions.md R180). All are
silent: this is a ghost output, which R187 allows and the state does not hold (notes/assumptions/16.md). -/
def edgeConditions (s : State) : IntervalClass → List Condition
  | .sync => if 0 < s.idx then [.incompleteWordDiscarded] else []
  | .bit0 => if s.seq.completes s.cfg then publicationConditions s (shiftIn s.cfg s.acc false) else []
  | .bit1 => if s.seq.completes s.cfg then publicationConditions s (shiftIn s.cfg s.acc true) else []
  | .glitch => [.glitch]

end Sys2Proof.Machine
end

