-- ==== Sys2Proof/Machine/Ops.lean ====
section
/-! DEFINITION. The named operations on the state: the writes, the slot's read and write, the completion of a read, the three
phases of an event, the delivery of an edge, and what the block does in place of taking an exception. -/

namespace Sys2Proof.Machine

/-- The outcome type of the machine. -/
abbrev Result := Host.Outcome State Fault Refusal

/-- `S.running <- b`. -/
def State.setRunning (s : State) (b : Bool) : State := { s with running := b }

/-- `S.rd <- r`. -/
def State.setRd (s : State) (r : PendingRead) : State := { s with rd := r }

/-- The port-level registers of a read that is issued (spec/10_state.md R27): `rd_t0` takes `now`, and a timed read's timeout
goes into `rd_tmo`. That an untimed read loads `rd_t0` too, as R27's words have it, though spec/60_exceptions.md R193 and
spec/10_state.md R37 name only EDGE and the timed read as readers of the counter, is the model's choice, and so is that such a
read keeps `rd_tmo` (DESIGN CHOICE, notes/assumptions/28.md). -/
def State.loadReadRegs (s : State) (r : PendingRead) : State :=
  match r with
  | .timed _ tmo => { s with rdT0 := s.now, rdTmo := tmo }
  | .none => { s with rdT0 := s.now }
  | .untimed => { s with rdT0 := s.now }

/-- `S.synced <- synced; S.acc <- acc; S.idx <- idx`: the sequencing state and the accumulator. -/
def State.setSeq (s : State) (synced : Bool) (acc : Nat) (idx : Nat) : State :=
  { s with synced := synced, acc := acc, idx := idx }

/-- `S.last_edge_time <- now` (spec/40_classifier.md R101). -/
def State.markEdge (s : State) : State := { s with lastEdgeTime := s.now }

/-- The result leaves the block. -/
def State.emit (s : State) (o : Output) : State := { s with out := s.out ++ [o] }

/-- `MemRead(SLOT, P.N)`: the one location there is (spec/00_scope.md R18). -/
def memRead (s : State) : Nat := s.slot

/-- `MemWrite(SLOT, P.N, v)` (spec/00_scope.md R18). -/
def memWrite (s : State) (v : Nat) : State := { s with slot := v }

/-- A read completes: `emit Done(r)` at time `t` and `S.rd <- NONE` (spec/42_read.md R144, R145; spec/41_control.md R131). -/
def finishRead (s : State) (t : Nat) (r : ReadResult) : State := (s.emit (.done t r)).setRd .none

/-- `expire(tau)`, phase 1 of every event (spec/42_read.md R144): a timed read whose deadline has passed returned no data at
its deadline. -/
def expire (s : State) : State :=
  match s.rd with
  | .none => s
  | .untimed => s
  | .timed t0 tmo => if s.tau > deadline t0 tmo then finishRead s (deadline t0 tmo) .noData else s

/-- The completing read: the slot is exchanged with 0 and its word delivered, in one step (spec/42_read.md R145,
spec/20_memory.md R58). -/
def deliverWord (s : State) : State := finishRead (memWrite s 0) s.tau (.word (memRead s))

/-- `resolve(tau)`, phase 3 of every event (spec/42_read.md R145): the word test comes before the time test. -/
def resolve (s : State) : State :=
  match s.rd with
  | .none => s
  | .untimed => if memRead s ≠ 0 then deliverWord s else s
  | .timed t0 tmo =>
    if memRead s ≠ 0 then deliverWord s
    else if s.tau ≥ deadline t0 tmo then finishRead s s.tau .noData
    else s

/-- An event: `expire`, the event's own rule, `resolve` (spec/00_scope.md R16). The rule may refuse the run. -/
def event (rule : State → Result) (s : State) : Result :=
  match rule (expire s) with
  | .next t => .next (resolve t)
  | .fault r => .fault r
  | .refused r => .refused r

/-- An event whose rule always has an effect. -/
def plainEvent (rule : State → State) (s : State) : Result := event (fun t => .next (rule t)) s

/-- `S.synced <- 0; S.acc <- 0; S.idx <- 0`: the block hunts for the next SYNC (spec/40_classifier.md R106, R107,
spec/41_control.md R132). -/
def hunt (s : State) : State := s.setSeq false 0 0

/-- SYNC (spec/40_classifier.md R103): a new word begins; an incomplete one is dropped without report. -/
def syncRule (s : State) : State := s.setSeq true 0 0

/-- Publication of the completed word `a` (spec/40_classifier.md R106): whatever the slot held is overwritten
(spec/20_memory.md R60), and the block hunts. -/
def publishRule (a : Nat) (s : State) : State := hunt (memWrite s a)

/-- BIT_0 and BIT_1 (spec/40_classifier.md R104, R105, R108): the bit is shifted in; the one that makes `P.N` publishes;
while hunting it is dropped. -/
def bitRule (b : Bool) (s : State) : State :=
  if s.synced then
    let a := shiftIn s.cfg s.acc b
    let k := s.idx + 1
    if k = s.cfg.n then publishRule a s else s.setSeq true a k
  else s

/-- GLITCH (spec/40_classifier.md R107): the word in progress is dropped silently. -/
def glitchRule (s : State) : State := hunt s

/-- The rule of a class (the dispatch of spec/40_classifier.md R101). -/
def classRule (c : IntervalClass) (s : State) : State :=
  match c with
  | .sync => syncRule s
  | .bit0 => bitRule false s
  | .bit1 => bitRule true s
  | .glitch => glitchRule s

/-- Entry to the edge handler, what this block has in place of taking an interrupt (spec/60_exceptions.md R184, R190): an
edge is delivered only while the callback is installed, nothing is saved and no mode is switched; a delivered edge
first becomes the reference for the next interval (spec/40_classifier.md R100, R101), then its class acts. There is no return
operation and nothing to restore (R191). -/
def deliverEdge (rule : State → State) (s : State) : State :=
  if s.running then rule s.markEdge else s

/-- `raise`, what this block has in place of taking an exception (spec/00_scope.md R18, spec/60_exceptions.md R180): it never
transfers control and saves nothing. The silent conditions and a kind mismatch change nothing here; `NoData` completes the
pending read without a word; `Misuse` has no meaning, and the run is refused. -/
def raise (c : Condition) (s : State) : Result :=
  match c with
  | .glitch => .next s
  | .incompleteWordDiscarded => .next s
  | .overrun => .next s
  | .zeroWord => .next s
  | .kindMismatch => .next s
  | .noData => .next (finishRead s s.tau .noData)
  | .misuse => .refused .misuse

/-- The issue of a read (spec/42_read.md R140, R142): misuse while not running (R141), ignored while another read is
pending (R143). An issued read loads the port-level registers (spec/10_state.md R27). -/
def issueRead (r : PendingRead) (s : State) : Result :=
  if s.running then .next (if s.rd = .none then (s.loadReadRegs r).setRd r else s) else raise .misuse s

/-- STOP's own rule (spec/41_control.md R131): a pending timed read completes with no data at once. -/
def stopRule (s : State) : Result :=
  match s.rd with
  | .none => .next (s.setRunning false)
  | .untimed => .next (s.setRunning false)
  | .timed _ _ => raise .noData (s.setRunning false)

/-- The values of hardware reset (spec/10_state.md R34, spec/70_reset_and_hazards.md R200). `last_edge_time` is a draw: a free
value of `P.TW` bits, a fresh one at each reset. Time, the environment's script and what has been delivered are
not the block's and stay. The port-level registers `rd_t0` and `rd_tmo`, of which R34 says nothing, take the value they have in
`State.reset` (DESIGN CHOICE, notes/assumptions/28.md). -/
def resetRule (s : State) : State :=
  { s with running := false, synced := false, acc := 0, idx := 0,
           lastEdgeTime := freeDraw s.draws % 2 ^ s.cfg.tw, slot := 0, rd := .none, rdT0 := 0, rdTmo := 0,
           draws := s.draws + 1 }

/-- A parse call delivers its result and does nothing else (spec/43_decoder.md R167). -/
def callParse (k : Kind) (w : Nat) (s : State) : State := s.emit (.parsed (parseOf s.cfg k w))

end Sys2Proof.Machine
end

