-- ==== Sys2Proof/Machine/Commands.lean ====
section
/-! DEFINITION. The command codes and the passing of time (spec/41_control.md, spec/42_read.md). -/

namespace Sys2Proof.Machine

/-- NOP: a TICK (spec/41_control.md R133). -/
def execNop (s : State) : Result := plainEvent id s

/-- START (R130): installs the edge callback, idempotent; writes nothing else. -/
def execStart (s : State) : Result := plainEvent (fun t => t.setRunning true) s

/-- STOP (R131): uninstalls the callback; a pending timed read gets no data, an untimed one stays pending. -/
def execStop (s : State) : Result := event stopRule s

/-- CLEAR (R132): drops the word in progress; neither the slot, a pending read, `running` nor `last_edge_time` changes. -/
def execClear (s : State) : Result := plainEvent hunt s

/-- READ (spec/42_read.md R140). -/
def execRead (s : State) : Result := event (issueRead .untimed) s

/-- READ_T (R142): the deadline is `tau + tmo`. -/
def execReadT (tmo : Nat) (s : State) : Result := event (issueRead (.timed s.tau tmo)) s

/-- Command code 6, reserved: a TICK (spec/41_control.md R133). -/
def execReserved6 (s : State) : Result := plainEvent id s

/-- Command code 7, reserved: a TICK (R133). -/
def execReserved7 (s : State) : Result := plainEvent id s

/-- TICK (spec/42_read.md R146): time passes; only the phases `expire` and `resolve` act. -/
def execTick (s : State) : Result := plainEvent id s

/-- Hardware reset (spec/70_reset_and_hazards.md R200): emits nothing, and drops a pending read without a result, so it runs
neither phase (notes/assumptions/4.md). -/
def execReset (s : State) : Result := .next (resetRule s)

end Sys2Proof.Machine
end

