-- ==== Sys2Proof/Machine/Edge.lean ====
section
/-! DEFINITION. The EDGE event and its classes (spec/40_classifier.md). -/

namespace Sys2Proof.Machine

/-- EDGE (R100, R101): the interval since the last delivered edge is classified and its class acts. The level is read by no
rule (R111). -/
def execEdge (_level : Bool) (s : State) : Result :=
  plainEvent (deliverEdge (classRule (classify s.cfg s.interval))) s

/-- SYNC (R103): the edge in hand ends a SYNC interval. -/
def execSync (s : State) : Result := plainEvent (deliverEdge syncRule) s

/-- BIT_0 (R104). -/
def execBit0 (s : State) : Result := plainEvent (deliverEdge (bitRule false)) s

/-- BIT_1 (R105). -/
def execBit1 (s : State) : Result := plainEvent (deliverEdge (bitRule true)) s

/-- GLITCH (R107): the edge in hand ends an interval in none of the three windows. -/
def execGlitch (s : State) : Result := plainEvent (deliverEdge glitchRule) s

/-- PUBLISH (R106): the edge in hand is the bit that completes the word `a`. -/
def execPublish (a : Nat) (s : State) : Result := plainEvent (deliverEdge (publishRule a)) s

end Sys2Proof.Machine
end

