-- ==== Sys2Proof/Machine/Parse.lean ====
section
/-! DEFINITION. The five parse calls (spec/43_decoder.md R160 to R172). They are no events: no phase runs (R167). -/

namespace Sys2Proof.Machine

/-- `parse_prog(w)` (R161). -/
def execParseProg (w : Nat) (s : State) : Result := .next (callParse .prog w s)

/-- `parse_ctrl(w)` (R162). -/
def execParseCtrl (w : Nat) (s : State) : Result := .next (callParse .ctrl w s)

/-- `parse_pace(w)` (R163). -/
def execParsePace (w : Nat) (s : State) : Result := .next (callParse .pace w s)

/-- `parse_act(w)` (R164). -/
def execParseAct (w : Nat) (s : State) : Result := .next (callParse .act w s)

/-- `parse_ack(w)` (R165). -/
def execParseAck (w : Nat) (s : State) : Result := .next (callParse .ack w s)

end Sys2Proof.Machine
end

