-- ==== Sys2Proof/Machine/Dispatch.lean ====
section
/-! DEFINITION. The dispatch: one arm per row of spec/opcode_table.json. -/

namespace Sys2Proof.Machine

def exec (i : Instr) (s : State) : Host.Outcome State Fault Refusal :=
  match i with
  | .nop => Sys2Proof.Machine.execNop s
  | .start => Sys2Proof.Machine.execStart s
  | .stop => Sys2Proof.Machine.execStop s
  | .clear => Sys2Proof.Machine.execClear s
  | .read => Sys2Proof.Machine.execRead s
  | .readT tmo => Sys2Proof.Machine.execReadT tmo s
  | .reserved6 => Sys2Proof.Machine.execReserved6 s
  | .reserved7 => Sys2Proof.Machine.execReserved7 s
  | .tick => Sys2Proof.Machine.execTick s
  | .edge level => Sys2Proof.Machine.execEdge level s
  -- the interval itself is spent in the decoding: a class acts by its rule at the time of its edge
  | .sync _ => Sys2Proof.Machine.execSync s
  | .bit0 _ => Sys2Proof.Machine.execBit0 s
  | .bit1 _ => Sys2Proof.Machine.execBit1 s
  | .glitch _ => Sys2Proof.Machine.execGlitch s
  | .publish a _ => Sys2Proof.Machine.execPublish a s
  | .parseProg w => Sys2Proof.Machine.execParseProg w s
  | .parseCtrl w => Sys2Proof.Machine.execParseCtrl w s
  | .parsePace w => Sys2Proof.Machine.execParsePace w s
  | .parseAct w => Sys2Proof.Machine.execParseAct w s
  | .parseAck w => Sys2Proof.Machine.execParseAck w s
  | .reset => Sys2Proof.Machine.execReset s

end Sys2Proof.Machine
end

