-- ==== Sys2Proof/Machine/Fetch.lean ====
section
/-! DEFINITION. What stands in place of an instruction fetch (spec/10_state.md R31: the block fetches no instructions): the
next thing the environment presents, and the time of it. -/

namespace Sys2Proof.Machine

/-- The next stimulus. When the environment has nothing more to present the ports are idle and time passes: the command
code is 0, a TICK, one microsecond later (spec/41_control.md R133; notes/assumptions/6.md). -/
def nextStimulus (s : State) : Stimulus :=
  match s.input with
  | [] => ⟨s.tau + 1, ⟨.command, 0⟩⟩
  | x :: _ => x

/-- The time of a stimulus: its stamp; for an edge presented by its interval, the first time from then on at which the
interval is the one presented (notes/assumptions/9.md). -/
def stimulusTime (s : State) (x : Stimulus) : Nat :=
  match x.record.format with
  | .interval => edgeTime s (max x.tau s.tau) x.record.bits
  | .command => x.tau
  | .event => x.tau
  | .packet => x.tau
  | .call => x.tau

/-- The state in which a stimulus acts: its time has come and it is taken from the script. -/
def consume (s : State) (x : Stimulus) : State := { s with tau := stimulusTime s x, input := s.input.tail }

/-- A packet whose marker matches no kind: "all five parses report failure and nothing else happens"
(spec/30_encoding.md R85 (b)). Any other record that is no operation cannot stand on its port, and the run is refused. -/
def undecoded (e : DecodeError) (s : State) : Host.Outcome State Fault Refusal :=
  match e with
  | .noKind w => .next { s with out := s.out ++ kinds.map (fun k => .parsed (parseOf s.cfg k w)) }
  | .commandTooWide => .refused (.undecodable .commandTooWide)
  | .eventTooWide => .refused (.undecodable .eventTooWide)
  | .intervalTooWide => .refused (.undecodable .intervalTooWide)
  | .wordTooWide => .refused (.undecodable .wordTooWide)
  | .noSuchFunction => .refused (.undecodable .noSuchFunction)

/-- The state with one more record in front of what the environment presents, at the present time. -/
def presentNow (s : State) (r : Record) : State := { s with input := ⟨s.tau, r⟩ :: s.input }

end Sys2Proof.Machine
end

