-- ==== Sys2Proof/Machine/Step.lean ====
section
/-! DEFINITION. One step: the next stimulus is taken, decoded and run. -/

namespace Sys2Proof.Machine

/-- One step. A configuration that is not one of this block is refused (spec/93_implementation_defined.md U8), and so is a
time before the last one (U9). -/
def step (s : State) : Host.Outcome State Fault Refusal :=
  let x := nextStimulus s
  if s.cfg.wf then
    if stimulusTime s x < s.tau then .refused .timeReversed
    else
      match decode s.cfg s.seq x.record with
      | .ok i => exec i (consume s x)
      | .error e => undecoded e (consume s x)
  else .refused .badConfig

/-- The state in which the next step runs a table row's word (see `tableRecord`), at the present time; nothing else
changes. -/
def State.withFetchWord (s : State) (nbits w : Nat) : State := presentNow s (tableRecord nbits w)

end Sys2Proof.Machine
end

