-- ==== Sys2Proof/Machine/Ports.lean ====
section
/-! DEFINITION. The port-level rendering (spec/70_reset_and_hazards.md R213): the ports, the order of one clock cycle, and the
outputs. It is a rendering of the events and adds no behaviour (spec/00_scope.md R14). -/

namespace Sys2Proof.Machine

/-- The input ports of one cycle. `tau` is the cycle's time; the port `now` carries `tau mod 2^P.TW`. `clk` is the cycle. -/
structure PortIn where
  rst       : Bool
  edgeValid : Bool
  edgeLevel : Bool
  tau       : Nat
  cmd       : BitVec 3
  cmdArg    : Nat
  parseWord : Nat
deriving DecidableEq, Repr

/-- Values that the ports can carry. -/
def PortIn.wf (P : Config) (p : PortIn) : Bool :=
  decide (p.cmdArg < 2 ^ P.tw) && decide (p.parseWord < 2 ^ P.n)

/-- The output ports. An output that the spec lets carry any value in a cycle is absent there: `rd_nodata` and `rd_word`
while `rd_done = 0`, `rd_word` for no data, the fields of a failed parse (spec/93_implementation_defined.md U3, U4;
notes/assumptions/20.md). The ports `X_ok` are the presence of the record. -/
structure PortOut where
  irqEn     : Bool
  slotValid : Bool
  rdBusy    : Bool
  rdDone    : Bool
  rdNodata  : Option Bool
  rdWord    : Option Nat
  prog      : Option Programming
  ctrl      : Option Controller
  pace      : Option PaceCar
  act       : Option Activity
  ack       : Option Acknowledge
deriving DecidableEq, Repr

/-- The events of a cycle, in their order: in reset the reset alone; else the edge if one is presented, then the command
(spec/70_reset_and_hazards.md R213; notes/assumptions/21.md for the cycle in reset). -/
def PortIn.events (p : PortIn) : List Instr :=
  if p.rst then [.reset]
  else (if p.edgeValid then [.edge p.edgeLevel] else []) ++ [commandInstr p.cmd.toNat p.cmdArg]

/-- The same as what the environment presents in the event model: every event carries the cycle's time. -/
def PortIn.stimuli (p : PortIn) : List Stimulus :=
  p.events.map (fun i => ⟨p.tau, encode i⟩)

/-- Operations one after the other, stopping at the first refusal. -/
def execAll : List Instr → State → Result
  | [], s => .next s
  | i :: is, s =>
    match exec i s with
    | .next t => execAll is t
    | .fault r => .fault r
    | .refused r => .refused r

/-- One clock cycle (spec/70_reset_and_hazards.md R213, R214). A READ or READ_T in a cycle at whose start a read is pending, which
the environment must not issue, is taken as the order of events has it: it is ignored while that read is still pending
after the cycle's EDGE, and issued where the EDGE completed it (DESIGN CHOICE, notes/assumptions/30.md). -/
def cycle (p : PortIn) (s : State) : Result :=
  if p.tau < s.tau then .refused .timeReversed else execAll p.events { s with tau := p.tau }

/-- The caller's contract for one cycle: no READ or READ_T in a cycle at whose start `rd_busy = 1`
(spec/70_reset_and_hazards.md R213). -/
def PortIn.conforms (p : PortIn) (s : State) : Bool :=
  !(s.rdBusy && (p.cmd == 4#3 || p.cmd == 5#3))

/-- The read results among a list of outputs, in order. -/
def readResults : List Output → List ReadResult
  | [] => []
  | .done _ r :: os => r :: readResults os
  | .parsed _ :: os => readResults os

/-- The read results that left the block between two states of a run. -/
def doneBetween (before after : State) : List ReadResult := readResults (after.out.drop before.out.length)

/-- The word of a read result, absent for no data. -/
def ReadResult.word? : ReadResult → Option Nat
  | .word w => some w
  | .noData => none

/-- The output ports of the cycle that took `before` to `after`. The parse outputs are combinational from `parse_word`
(spec/43_decoder.md R172). The status outputs show the state after the cycle's events (DESIGN CHOICE, notes/assumptions/29.md).
Of two read results in a cycle, which only a non-conforming read can give, the first is shown (DESIGN CHOICE,
notes/assumptions/30.md). -/
def portOut (p : PortIn) (before after : State) : PortOut where
  irqEn := after.irqEn
  slotValid := after.slotValid
  rdBusy := after.rdBusy
  rdDone := !(doneBetween before after).isEmpty
  rdNodata := (doneBetween before after).head?.map (fun r => r == .noData)
  rdWord := (doneBetween before after).head?.bind ReadResult.word?
  prog := parseProg after.cfg p.parseWord
  ctrl := parseCtrl after.cfg p.parseWord
  pace := parsePace after.cfg p.parseWord
  act := parseAct after.cfg p.parseWord
  ack := parseAck after.cfg p.parseWord

end Sys2Proof.Machine
end

