-- ==== Sys2Proof/Safety.lean ====
section
/-! DEFINITION. The terms that claims about runs use: the invariant of the state between events, the states a run from reset
reaches, and what a frame on the wire spells. -/

namespace Sys2Proof.Machine

/-- What holds of the state between events (spec/10_state.md R30 (a) to (d)), with the widths of its fields (R21 to R27), the
configuration's well-formedness (a premise of every claim, spec/93_implementation_defined.md U8), that the port-level registers
of a pending timed read hold its issue and its timeout (R27), and that a timed read is pending only while running
(spec/41_control.md R131, spec/42_read.md R141). -/
structure State.Inv (s : State) : Prop where
  cfg_wf        : s.cfg.wf = true
  idx_lt        : s.idx < s.cfg.n
  acc_lt        : s.acc < 2 ^ s.idx
  hunting       : s.synced = false → s.acc = 0 ∧ s.idx = 0
  reading       : s.rd ≠ .none → s.slot = 0
  slot_lt       : s.slot < 2 ^ s.cfg.n
  edge_lt       : s.lastEdgeTime < 2 ^ s.cfg.tw
  timeout_lt    : ∀ t0 tmo, s.rd = .timed t0 tmo → tmo < 2 ^ s.cfg.tw
  t0_lt         : s.rdT0 < 2 ^ s.cfg.tw
  tmo_lt        : s.rdTmo < 2 ^ s.cfg.tw
  registers     : ∀ t0 tmo, s.rd = .timed t0 tmo → s.rdT0 = counterAt s.cfg t0 ∧ s.rdTmo = tmo
  timed_running : ∀ t0 tmo, s.rd = .timed t0 tmo → s.running = true

/-- The states of every run from reset: any configuration of the block, any value of the unspecified
`last_edge_time` (spec/10_state.md R35), any time of reset, any script of the environment. -/
inductive Reachable : State → Prop where
  | reset (P : Config) (t : Nat) (tau : Nat) (script : List Stimulus) (hP : P.wf = true) (ht : t < 2 ^ P.tw) :
      Reachable { State.resetOf P t with tau := tau, input := script }
  | step (s t : State) (hs : Reachable s) (h : Sys2Proof.Machine.step s = .next t) : Reachable t

/-- The number whose binary digits are `bs`, the first the most significant, after the digits of `acc`
(spec/20_memory.md R51, spec/30_encoding.md R74). -/
def wordFrom (acc : Nat) : List Bool → Nat
  | [] => acc
  | b :: bs => wordFrom (2 * acc + b.toNat) bs

/-- The class that a bit has on the wire (spec/30_encoding.md R74). -/
def bitClass : Bool → IntervalClass
  | false => .bit0
  | true => .bit1

/-- Edges at the times `ts`, after one whose counter value was `last`, spell the bits `bs`: as many of one as of the other,
each interval in the window of its bit (spec/30_encoding.md R74). -/
def Spells (P : Config) : Nat → List Nat → List Bool → Prop
  | _, [], [] => True
  | last, t :: ts, b :: bs =>
    classify P (subMod P.tw (counterAt P t) last) = bitClass b ∧ Spells P (counterAt P t) ts bs
  | _, [], _ :: _ => False
  | _, _ :: _, [] => False

/-- None of the edges at the times `ts`, after one whose counter value was `last`, ends a SYNC interval. -/
def NoSync (P : Config) : Nat → List Nat → Prop
  | _, [] => True
  | last, t :: ts => classify P (subMod P.tw (counterAt P t) last) ≠ .sync ∧ NoSync P (counterAt P t) ts

/-- Times that never decrease, from `t` on (spec/00_scope.md R15). -/
def Rising : Nat → List Nat → Prop
  | _, [] => True
  | t, u :: us => t ≤ u ∧ Rising u us

/-- Edges at the given times, as the environment presents them. -/
def edgesAt (ts : List Nat) : List Stimulus := ts.map (fun t => ⟨t, encode (.edge false)⟩)

/-- A stimulus that is the command START (spec/30_encoding.md R86). -/
def Stimulus.isStart (x : Stimulus) : Bool := x.record.format == .command && x.record.bits % 8 == 1

end Sys2Proof.Machine

namespace Sys2Proof

/-- The operations that are the producer's: EDGE, and an edge given by its class (spec/60_exceptions.md R192). -/
def Instr.isEdge : Instr → Bool
  | .edge _ => true
  | .sync _ => true
  | .bit0 _ => true
  | .bit1 _ => true
  | .glitch _ => true
  | .publish _ _ => true
  | .nop => false
  | .start => false
  | .stop => false
  | .clear => false
  | .read => false
  | .readT _ => false
  | .reserved6 => false
  | .reserved7 => false
  | .tick => false
  | .parseProg _ => false
  | .parseCtrl _ => false
  | .parsePace _ => false
  | .parseAct _ => false
  | .parseAck _ => false
  | .reset => false

/-- The parse calls: pure functions, no events (spec/00_scope.md R14). -/
def Instr.isParse : Instr → Bool
  | .parseProg _ => true
  | .parseCtrl _ => true
  | .parsePace _ => true
  | .parseAct _ => true
  | .parseAck _ => true
  | .nop => false
  | .start => false
  | .stop => false
  | .clear => false
  | .read => false
  | .readT _ => false
  | .reserved6 => false
  | .reserved7 => false
  | .tick => false
  | .edge _ => false
  | .sync _ => false
  | .bit0 _ => false
  | .bit1 _ => false
  | .glitch _ => false
  | .publish _ _ => false
  | .reset => false

end Sys2Proof
end

