-- ==== Sys2Proof/Certificates/Slice0/Obligations.lean ====
section
/-! DEFINITION. The statements for the provers, each a Prop under Obligations, and the few terms they share. The docstring of
each says which rule of spec/ it formalises, or that it rests on a choice of the model's. -/

open Sys2Proof Sys2Proof.Machine

namespace Sys2Proof.Claims

/-- The state after an event at `s.tau` whose own rule does nothing, written out by cases from spec/42_read.md R144 and R145:
a timed read past its deadline got no data at its deadline and sees no word; else a pending read takes a held
word; else a timed read at its deadline gets no data now. -/
def settled (s : State) : State :=
  match s.rd with
  | .none => s
  | .untimed =>
    if s.slot = 0 then s else { s with slot := 0, rd := .none, out := s.out ++ [.done s.tau (.word s.slot)] }
  | .timed t0 tmo =>
    if t0 + tmo < s.tau then { s with rd := .none, out := s.out ++ [.done (t0 + tmo) .noData] }
    else if s.slot ≠ 0 then { s with slot := 0, rd := .none, out := s.out ++ [.done s.tau (.word s.slot)] }
    else if s.tau = t0 + tmo then { s with rd := .none, out := s.out ++ [.done s.tau .noData] }
    else s

/-- The interval an edge at `s.tau` measures (spec/40_classifier.md R101), where `last_edge_time` has `P.TW` bits. -/
def measured (s : State) : Nat := (s.tau % 2 ^ s.cfg.tw + 2 ^ s.cfg.tw - s.lastEdgeTime) % 2 ^ s.cfg.tw

/-- The operation of a class (the rows SYNC, BIT_0, BIT_1, GLITCH of the table). -/
def classOp (c : IntervalClass) (dt : Nat) : Instr :=
  match c with
  | .sync => .sync dt
  | .bit0 => .bit0 dt
  | .bit1 => .bit1 dt
  | .glitch => .glitch dt

/-- What a delivered bit `b` leaves (spec/40_classifier.md R104, R105, R106, R108): while hunting only the edge's time; else the
bit is shifted in, and the bit that makes `P.N` puts the word in the slot before the phase `resolve`. -/
def afterBit (b : Bool) (s : State) : State :=
  let now := s.tau % 2 ^ s.cfg.tw
  let a := (2 * s.acc + b.toNat) % 2 ^ s.cfg.n
  if s.synced = false then { settled s with lastEdgeTime := now }
  else if s.idx + 1 = s.cfg.n then
    { settled { s with slot := a } with lastEdgeTime := now, synced := false, acc := 0, idx := 0 }
  else { settled s with lastEdgeTime := now, acc := a, idx := s.idx + 1 }

/-- A function on next states, refusals kept. -/
def mapNext (f : State → State) : Result → Result
  | .next t => .next (f t)
  | .fault r => .fault r
  | .refused r => .refused r

/-- The same block sensing another pin, with another polarity and pin mode (spec/00_scope.md R12). -/
def repin (inverted : Bool) (pin : Nat) (mode : Option Nat) (s : State) : State :=
  { s with cfg := { s.cfg with inverted := inverted, pin := pin, pinMode := mode } }

end Sys2Proof.Claims

open Sys2Proof.Claims

/-! ### Reset, the step, the decoder -/

/-- spec/10_state.md R34, for every configuration and every value of the unspecified `last_edge_time`. -/
def Obligations.ResetStateHasTheStatedValues : Prop :=
  ∀ (P : Config) (t : Nat),
    (State.resetOf P t).running = false ∧ (State.resetOf P t).synced = false ∧ (State.resetOf P t).acc = 0 ∧
    (State.resetOf P t).idx = 0 ∧ (State.resetOf P t).slot = 0 ∧ (State.resetOf P t).rd = .none ∧
    (State.resetOf P t).lastEdgeTime = t ∧ (State.resetOf P t).cfg = P

/-- The invariant holds at reset, for every configuration of the block, and so at `State.reset`, whose configuration and
`last_edge_time` are the model's choices (notes/assumptions/1.md, 2.md), as is the 0 in `rd_t0` and `rd_tmo` (28.md). -/
def Obligations.ResetMeetsTheInvariant : Prop :=
  (∀ (P : Config) (t tau : Nat) (script : List Stimulus), P.wf = true → t < 2 ^ P.tw →
    State.Inv { State.resetOf P t with tau := tau, input := script }) ∧ State.reset.Inv

/-- spec/70_reset_and_hazards.md R200: RESET puts the state in the values of R34, `last_edge_time` some `P.TW`-bit value, emits
nothing and drops a pending read without a result. `draws` is the model's own count (notes/assumptions/3.md), and that RESET
runs no phase is the model's reading (notes/assumptions/4.md); so is the 0 in `rd_t0` and `rd_tmo` (notes/assumptions/28.md). -/
def Obligations.HardwareResetClearsAndEmitsNothing : Prop :=
  ∀ s : State, ∃ v : Nat, v < 2 ^ s.cfg.tw ∧
    exec .reset s = .next { s with running := false, synced := false, acc := 0, idx := 0, lastEdgeTime := v,
                                   slot := 0, rd := .none, rdT0 := 0, rdTmo := 0, draws := s.draws + 1 }

/-- A step runs the decoded operation (notes/assumptions/5.md, 6.md): the head of the script, or an idle NOP one microsecond
later, at its time, taken from the script. -/
def Obligations.StepRunsTheDecodedOperation : Prop :=
  (∀ (s : State) (i : Instr), s.cfg.wf = true → s.tau ≤ stimulusTime s (nextStimulus s) →
    decode s.cfg s.seq (nextStimulus s).record = .ok i →
    step s = exec i { s with tau := stimulusTime s (nextStimulus s), input := s.input.tail }) ∧
  (∀ (s : State) (x : Stimulus) (rest : List Stimulus), s.input = x :: rest → nextStimulus s = x) ∧
  (∀ s : State, s.input = [] → nextStimulus s = ⟨s.tau + 1, encode .nop⟩)

/-- The three ways a step is refused outside `exec`: a configuration that is not one of this block
(spec/93_implementation_defined.md U8), a time before the last one (U9), and, by the model's own choice of record layouts
(DESIGN CHOICE, notes/assumptions/8.md), a record wider than its format or a call of no parse function. See also
notes/assumptions/7.md and 13.md. -/
def Obligations.StepRefusesWhatTheEnvironmentMayNotDo : Prop :=
  (∀ s : State, s.cfg.wf = false → step s = .refused .badConfig) ∧
  (∀ (s : State) (x : Stimulus) (rest : List Stimulus), s.cfg.wf = true → s.input = x :: rest →
    x.record.format ≠ .interval → x.tau < s.tau → step s = .refused .timeReversed) ∧
  (∀ (s : State) (x : Stimulus) (rest : List Stimulus) (e : DecodeError), s.cfg.wf = true → s.input = x :: rest →
    s.tau ≤ x.tau → decode s.cfg s.seq x.record = .error e → (∀ w, e ≠ .noKind w) →
    step s = .refused (.undecodable e))

/-- Words of spec/opcode_table.json, written out from its encodings (command codes of R86, `REF` packets of R83). The spec gives
a command and its argument no packing: that a one-byte row is a command record with `cmd_arg` 0 above the code, so that
0b101 is READ_T with the timeout 0, and a wider row a packet record, is the model's choice (notes/assumptions/8.md). -/
def Obligations.TableWordsDecodeToTheirRows : Prop :=
  decodeTableWord 8 0b000 = some .nop ∧ decodeTableWord 8 0b001 = some .start ∧
  decodeTableWord 8 0b010 = some .stop ∧ decodeTableWord 8 0b011 = some .clear ∧
  decodeTableWord 8 0b100 = some .read ∧ decodeTableWord 8 0b101 = some (.readT 0) ∧
  decodeTableWord 8 0b110 = some .reserved6 ∧ decodeTableWord 8 0b111 = some .reserved7 ∧
  decodeTableWord 16 0b0001100000101111 = some (.parseProg 0x182F) ∧
  decodeTableWord 16 0b0010000110101011 = some (.parseCtrl 0x21AB) ∧
  decodeTableWord 16 0b0011000000001111 = some (.parsePace 0x300F) ∧
  decodeTableWord 16 0b0100000001010101 = some (.parseAct 0x4055) ∧
  decodeTableWord 16 0b0101000010000001 = some (.parseAck 0x5081)

/-- Decode and encode agree: every operation that can be presented in a sequencing state, with every operand its format
admits, decodes back from its record. The record layouts are the model's (notes/assumptions/8.md). -/
def Obligations.DecodeOfEncodeIsTheOperation : Prop :=
  ∀ (P : Config) (q : Seq) (i : Instr), P.wf = true → i.wfIn P q = true → decode P q (encode i) = .ok i

/-- Whatever the decoder answers is well formed in the sequencing state it was decoded in. The record layouts and PUBLISH as
an operation are the model's (notes/assumptions/8.md, 10.md). -/
def Obligations.DecodedOperationsAreWellFormed : Prop :=
  ∀ (P : Config) (q : Seq) (r : Record) (i : Instr), P.wf = true → decode P q r = .ok i → i.wfIn P q = true

/-- spec/30_encoding.md R85 (b), by way of a step: a word whose marker matches no kind fails all five parses and nothing else
happens; one that matches some kind is parsed as a kind it matches (notes/assumptions/11.md). -/
def Obligations.PacketWordIsParsedOrFailsEveryParse : Prop :=
  ∀ (s : State) (t w : Nat) (rest : List Stimulus), s.cfg.wf = true → s.input = ⟨t, ⟨.packet, w⟩⟩ :: rest →
    s.tau ≤ t → w < 2 ^ s.cfg.n →
    ((∀ k, w &&& (s.cfg.layout.marker k).mask ≠ (s.cfg.layout.marker k).pattern) →
      step s = .next { s with
        tau := t, input := rest,
        out := s.out ++ [.parsed (.prog none), .parsed (.ctrl none), .parsed (.pace none), .parsed (.act none),
                         .parsed (.ack none)] }) ∧
    ((∃ k, w &&& (s.cfg.layout.marker k).mask = (s.cfg.layout.marker k).pattern) →
      ∃ k, w &&& (s.cfg.layout.marker k).mask = (s.cfg.layout.marker k).pattern ∧
        step s = exec (parseInstr k w) { s with tau := t, input := rest })

/-! ### The classifier -/

/-- spec/30_encoding.md R72: the class is decided by the three windows, GLITCH is an interval in none of them, and the order of
the tests does not matter. -/
def Obligations.ClassifyIsDecidedByTheWindows : Prop :=
  ∀ (P : Config) (dt : Nat), P.wf = true →
    (classify P dt = .sync ↔ P.syncMin ≤ dt ∧ dt ≤ P.syncMax) ∧
    (classify P dt = .bit0 ↔ P.b0Min ≤ dt ∧ dt ≤ P.b0Max) ∧
    (classify P dt = .bit1 ↔ P.b1Min ≤ dt ∧ dt ≤ P.b1Max) ∧
    (classify P dt = .glitch ↔
      ¬ (P.syncMin ≤ dt ∧ dt ≤ P.syncMax) ∧ ¬ (P.b0Min ≤ dt ∧ dt ≤ P.b0Max) ∧ ¬ (P.b1Min ≤ dt ∧ dt ≤ P.b1Max))

/-- spec/40_classifier.md R110 (a): the interval measured between counter values is the true time modulo `2^P.TW`, and the true
time where that is less than a period, across a wrap of the counter too. -/
def Obligations.MeasuredIntervalIsTheTimeModuloThePeriod : Prop :=
  ∀ (P : Config) (t1 t2 : Nat), t1 ≤ t2 →
    subMod P.tw (counterAt P t2) (counterAt P t1) = (t2 - t1) % 2 ^ P.tw ∧
    (t2 - t1 < 2 ^ P.tw → subMod P.tw (counterAt P t2) (counterAt P t1) = t2 - t1)

/-! ### Commands and time -/

/-- TICK: only the phases act (spec/42_read.md R144, R145, R146). -/
def Obligations.TickRunsOnlyThePhases : Prop :=
  ∀ s : State, exec .tick s = .next (settled s)

/-- spec/41_control.md R133: NOP and the reserved codes 6 and 7 are a TICK. -/
def Obligations.NopAndReservedCodesAreTicks : Prop :=
  ∀ s : State, (exec .nop s = exec .tick s ∧ exec .reserved6 s = exec .tick s ∧ exec .reserved7 s = exec .tick s) ∧
    exec .nop s = .next (settled s) ∧ exec .reserved6 s = .next (settled s) ∧ exec .reserved7 s = .next (settled s)

/-- spec/41_control.md R130: START sets `running` and writes nothing else; a second START at the same time changes nothing. -/
def Obligations.StartSetsRunningAlone : Prop :=
  ∀ s : State, exec .start s = .next { settled s with running := true } ∧
    (s.running = true → s.rd = .none → exec .start s = .next s)

/-- spec/41_control.md R131: STOP clears `running`; a pending timed read gets no data, at once or, where its deadline has
passed, at its deadline; nothing else is written. -/
def Obligations.StopClearsRunningAndEndsATimedRead : Prop :=
  ∀ s : State,
    (∀ t0 tmo, s.rd = .timed t0 tmo →
      exec .stop s = .next { s with running := false, rd := .none,
                                    out := s.out ++ [.done (min s.tau (t0 + tmo)) .noData] }) ∧
    ((∀ t0 tmo, s.rd ≠ .timed t0 tmo) → exec .stop s = .next { settled s with running := false })

/-- spec/41_control.md R132: CLEAR drops the word in progress and writes nothing else, running or not. -/
def Obligations.ClearDropsOnlyTheWordInProgress : Prop :=
  ∀ s : State, exec .clear s = .next { settled s with synced := false, acc := 0, idx := 0 }

/-- spec/42_read.md R140 with R145, R150: READ takes a held word at once, else it is left pending. The register `rd_t0` takes
`now` (spec/10_state.md R27); that an untimed read loads it, though spec/60_exceptions.md R193 names only the timed read, and also
where the read completes at once, is the model's choice (notes/assumptions/28.md). -/
def Obligations.ReadTakesAHeldWordOrWaits : Prop :=
  ∀ s : State, s.running = true → s.rd = .none →
    exec .read s = .next (if s.slot = 0 then { s with rd := .untimed, rdT0 := s.tau % 2 ^ s.cfg.tw }
      else { s with slot := 0, rdT0 := s.tau % 2 ^ s.cfg.tw, out := s.out ++ [.done s.tau (.word s.slot)] })

/-- spec/42_read.md R142 with R145, R150: READ_T takes a held word at once; with none, a timeout of 0 answers no data at once,
and any other leaves the read pending with the deadline `tau + tmo`. The registers `rd_t0` and `rd_tmo` take `now` and the timeout
(spec/10_state.md R27); that they do so where the read completes at once is the model's choice (notes/assumptions/28.md). -/
def Obligations.TimedReadTakesAWordPollsOrWaits : Prop :=
  ∀ (s : State) (tmo : Nat), s.running = true → s.rd = .none →
    exec (.readT tmo) s = .next (
      if s.slot ≠ 0 then { s with slot := 0, rdT0 := s.tau % 2 ^ s.cfg.tw, rdTmo := tmo,
                                  out := s.out ++ [.done s.tau (.word s.slot)] }
      else if tmo = 0 then { s with rdT0 := s.tau % 2 ^ s.cfg.tw, rdTmo := tmo, out := s.out ++ [.done s.tau .noData] }
      else { s with rd := .timed s.tau tmo, rdT0 := s.tau % 2 ^ s.cfg.tw, rdTmo := tmo })

/-- spec/42_read.md R143: a read issued while another is pending is a TICK. (A timed read whose deadline has passed is no longer
pending: the next statement, and notes/assumptions/19.md.) -/
def Obligations.SecondReadIsIgnored : Prop :=
  ∀ (s : State) (tmo : Nat), s.running = true → s.rd ≠ .none → (∀ t0 d, s.rd = .timed t0 d → s.tau ≤ t0 + d) →
    exec .read s = exec .tick s ∧ exec (.readT tmo) s = exec .tick s ∧ exec .read s = .next (settled s)

/-- A read issued after the deadline of the pending one: the pending one is settled first, with no data at its deadline, and
the new one is issued, registers included (spec/00_scope.md R16, spec/42_read.md R144, spec/10_state.md R27; the model's
reading, notes/assumptions/19.md, 28.md). -/
def Obligations.ReadAfterAPassedDeadlineIsIssued : Prop :=
  ∀ (s : State) (t0 d tmo now : Nat), s.running = true → s.rd = .timed t0 d → t0 + d < s.tau →
    now = s.tau % 2 ^ s.cfg.tw →
    exec .read s = .next (
      if s.slot = 0 then { s with rd := .untimed, rdT0 := now, out := s.out ++ [.done (t0 + d) .noData] }
      else { s with slot := 0, rd := .none, rdT0 := now,
                    out := s.out ++ [.done (t0 + d) .noData, .done s.tau (.word s.slot)] }) ∧
    exec (.readT tmo) s = .next (
      if s.slot ≠ 0 then { s with slot := 0, rd := .none, rdT0 := now, rdTmo := tmo,
                                  out := s.out ++ [.done (t0 + d) .noData, .done s.tau (.word s.slot)] }
      else if tmo = 0 then { s with rd := .none, rdT0 := now, rdTmo := tmo,
                                    out := s.out ++ [.done (t0 + d) .noData, .done s.tau .noData] }
      else { s with rd := .timed s.tau tmo, rdT0 := now, rdTmo := tmo, out := s.out ++ [.done (t0 + d) .noData] })

/-- spec/42_read.md R141: a read while not running has no meaning and the model refuses the run at it. -/
def Obligations.ReadWhileStoppedIsRefused : Prop :=
  ∀ (s : State) (tmo : Nat), s.running = false →
    exec .read s = .refused .misuse ∧ exec (.readT tmo) s = .refused .misuse

/-- Nothing but a read while not running is refused by `exec` (spec/20_memory.md R61, spec/41_control.md R135). -/
def Obligations.OnlyMisusedReadsAreRefused : Prop :=
  ∀ (i : Instr) (s : State), (∃ t, exec i s = .next t) ∨
    ((i = .read ∨ ∃ tmo, i = .readT tmo) ∧ s.running = false ∧ exec i s = .refused .misuse)

/-! ### Edges -/

/-- spec/40_classifier.md R100: while not running an edge changes nothing, not even `last_edge_time`; only the phases of
R16 act, and with no read pending nothing does. The same of an edge given by its class. That the phases act is the model's
reading (notes/assumptions/22.md). -/
def Obligations.EdgeWhileStoppedIsNotDelivered : Prop :=
  ∀ (i : Instr) (s : State), i.isEdge = true → s.running = false →
    exec i s = .next (settled s) ∧ (settled s).lastEdgeTime = s.lastEdgeTime ∧ (settled s).seq = s.seq ∧
      (s.rd = .none → exec i s = .next s)

/-- spec/40_classifier.md R101: an edge measures its interval and acts by the class of it, and a delivered edge becomes the
reference for the next interval whatever its class. -/
def Obligations.EdgeActsByTheClassOfItsInterval : Prop :=
  ∀ (s : State) (level : Bool), s.lastEdgeTime < 2 ^ s.cfg.tw →
    exec (.edge level) s = exec (classOp (classify s.cfg (measured s)) (measured s)) s ∧
    (s.running = true → ∃ t, exec (.edge level) s = .next t ∧ t.lastEdgeTime = s.tau % 2 ^ s.cfg.tw)

/-- spec/40_classifier.md R103: SYNC starts a new word, drops an incomplete one, and leaves the slot to the phases. -/
def Obligations.SyncStartsANewWord : Prop :=
  ∀ (s : State) (dt : Nat), s.running = true →
    exec (.sync dt) s = .next { settled s with lastEdgeTime := s.tau % 2 ^ s.cfg.tw,
                                               synced := true, acc := 0, idx := 0 }

/-- spec/40_classifier.md R104: BIT_0 shifts a 0 in, publishes at `P.N`, and is dropped while hunting. -/
def Obligations.BitZeroShiftsInAZero : Prop :=
  ∀ (s : State) (dt : Nat), s.running = true → exec (.bit0 dt) s = .next (afterBit false s)

/-- spec/40_classifier.md R105: BIT_1 shifts a 1 in, publishes at `P.N`, and is dropped while hunting. -/
def Obligations.BitOneShiftsInAOne : Prop :=
  ∀ (s : State) (dt : Nat), s.running = true → exec (.bit1 dt) s = .next (afterBit true s)

/-- spec/40_classifier.md R106: publication writes the slot whatever it held, and the block hunts; the pending read is the
`resolve` phase's. -/
def Obligations.PublishOverwritesTheSlotAndHunts : Prop :=
  ∀ (s : State) (a dt : Nat), s.running = true →
    exec (.publish a dt) s = .next { settled { s with slot := a } with
      lastEdgeTime := s.tau % 2 ^ s.cfg.tw, synced := false, acc := 0, idx := 0 }

/-- spec/40_classifier.md R107: GLITCH drops the word in progress and leaves the slot to the phases. -/
def Obligations.GlitchDropsTheWordInProgress : Prop :=
  ∀ (s : State) (dt : Nat), s.running = true →
    exec (.glitch dt) s = .next { settled s with lastEdgeTime := s.tau % 2 ^ s.cfg.tw,
                                                 synced := false, acc := 0, idx := 0 }

/-- spec/40_classifier.md R112, row by row, with no read pending; and, in every state, the sequencing state outside EDGE. -/
def Obligations.EdgeFollowsTheTransitionTable : Prop :=
  (∀ (s : State) (level : Bool), s.Inv → s.running = true → s.rd = .none →
    (classify s.cfg (measured s) = .sync →
      exec (.edge level) s = .next { s with lastEdgeTime := s.tau % 2 ^ s.cfg.tw,
                                            synced := true, idx := 0, acc := 0 }) ∧
    (s.synced = false → classify s.cfg (measured s) ≠ .sync →
      exec (.edge level) s = .next { s with lastEdgeTime := s.tau % 2 ^ s.cfg.tw }) ∧
    (∀ b, s.synced = true → s.idx + 1 < s.cfg.n → classify s.cfg (measured s) = bitClass b →
      exec (.edge level) s = .next { s with lastEdgeTime := s.tau % 2 ^ s.cfg.tw,
                                            idx := s.idx + 1, acc := 2 * s.acc + b.toNat }) ∧
    (∀ b, s.synced = true → s.idx + 1 = s.cfg.n → classify s.cfg (measured s) = bitClass b →
      exec (.edge level) s = .next { s with lastEdgeTime := s.tau % 2 ^ s.cfg.tw, synced := false, idx := 0,
                                            acc := 0, slot := 2 * s.acc + b.toNat }) ∧
    (s.synced = true → classify s.cfg (measured s) = .glitch →
      exec (.edge level) s = .next { s with lastEdgeTime := s.tau % 2 ^ s.cfg.tw,
                                            synced := false, idx := 0, acc := 0 })) ∧
  (∀ s t : State, exec .clear s = .next t → t.synced = false ∧ t.idx = 0) ∧
  ∀ (s t : State) (i : Instr), (i = .start ∨ i = .stop ∨ i = .read ∨ (∃ tmo, i = .readT tmo) ∨ i = .tick) →
    exec i s = .next t → t.synced = s.synced ∧ t.idx = s.idx

/-- spec/42_read.md R147, with the wake of R145: the edge that completes a nonzero word at or before the deadline hands the word
to the waiting reader; after the deadline the read got no data at the deadline and the word stays in the slot. -/
def Obligations.WordAtTheDeadlineIsReturned : Prop :=
  ∀ (s : State) (level b : Bool) (a : Nat), s.lastEdgeTime < 2 ^ s.cfg.tw → s.running = true → s.synced = true →
    s.idx + 1 = s.cfg.n → classify s.cfg (measured s) = bitClass b → a = (2 * s.acc + b.toNat) % 2 ^ s.cfg.n →
    a ≠ 0 →
    (s.rd = .untimed → ∃ t, exec (.edge level) s = .next t ∧ t.out = s.out ++ [.done s.tau (.word a)] ∧
      t.slot = 0 ∧ t.rd = .none) ∧
    (∀ t0 tmo, s.rd = .timed t0 tmo →
      (s.tau ≤ t0 + tmo → ∃ t, exec (.edge level) s = .next t ∧ t.out = s.out ++ [.done s.tau (.word a)] ∧
        t.slot = 0 ∧ t.rd = .none) ∧
      (t0 + tmo < s.tau → ∃ t, exec (.edge level) s = .next t ∧ t.out = s.out ++ [.done (t0 + tmo) .noData] ∧
        t.slot = a ∧ t.rd = .none))

/-- An edge presented by its interval is the EDGE event at the first time, from the one presented on, at which the interval
since the last delivered edge is that one (notes/assumptions/9.md, 10.md). -/
def Obligations.IntervalRecordIsAnEdgeAtItsTime : Prop :=
  ∀ (s : State) (t dt : Nat) (rest : List Stimulus), s.cfg.wf = true → s.lastEdgeTime < 2 ^ s.cfg.tw →
    dt < 2 ^ s.cfg.tw → s.input = ⟨t, ⟨.interval, dt⟩⟩ :: rest →
    step s = step { s with input := ⟨edgeTime s (max t s.tau) dt, encode (.edge false)⟩ :: rest }

/-- The time at which such an edge comes is the first from `t` on at which it measures `dt` (notes/assumptions/9.md). -/
def Obligations.EdgeTimeIsTheFirstOfItsInterval : Prop :=
  ∀ (s : State) (t dt : Nat), s.lastEdgeTime < 2 ^ s.cfg.tw → dt < 2 ^ s.cfg.tw →
    t ≤ edgeTime s t dt ∧ measured { s with tau := edgeTime s t dt } = dt ∧
    ∀ u, t ≤ u → u < edgeTime s t dt → measured { s with tau := u } ≠ dt

/-- spec/60_exceptions.md R180, R187, R189: what an edge raises is silent and changes nothing, and a GLITCH, a dropped incomplete
word and a publication exclude each other. The list of raised conditions is the model's (notes/assumptions/16.md). -/
def Obligations.EdgeConditionsAreSilentAndExclusive : Prop :=
  ∀ (s : State) (c : IntervalClass),
    (∀ x ∈ edgeConditions s c, x.silent = true ∧ ∀ u : State, raise x u = .next u) ∧
    (Condition.glitch ∈ edgeConditions s c ↔ c = .glitch) ∧
    (Condition.incompleteWordDiscarded ∈ edgeConditions s c ↔ c = .sync ∧ 0 < s.idx) ∧
    (Condition.overrun ∈ edgeConditions s c ↔
      (c = .bit0 ∨ c = .bit1) ∧ s.synced = true ∧ s.idx + 1 = s.cfg.n ∧ s.slot ≠ 0) ∧
    (Condition.zeroWord ∈ edgeConditions s c ↔
      ∃ b, c = bitClass b ∧ s.synced = true ∧ s.idx + 1 = s.cfg.n ∧ (2 * s.acc + b.toNat) % 2 ^ s.cfg.n = 0)

/-! ### The packet decoder -/

/-- spec/43_decoder.md R161 to R165: what each parse call returns, and that it changes nothing else. -/
def Obligations.ParseCallsReturnTheFields : Prop :=
  ∀ (s : State) (w : Nat),
    (exec (.parseProg w) s = .next { s with out := s.out ++ [.parsed (.prog (
      if w &&& s.cfg.layout.prog.marker.mask = s.cfg.layout.prog.marker.pattern then
        some ⟨BitVec.ofNat 5 (w >>> s.cfg.layout.prog.command), BitVec.ofNat 4 (w >>> s.cfg.layout.prog.value),
              BitVec.ofNat 3 (w >>> s.cfg.layout.prog.address)⟩
      else none))] }) ∧
    (exec (.parseCtrl w) s = .next { s with out := s.out ++ [.parsed (.ctrl (
      if w &&& s.cfg.layout.ctrl.marker.mask = s.cfg.layout.ctrl.marker.pattern then
        some ⟨BitVec.ofNat 3 (w >>> s.cfg.layout.ctrl.address), w.testBit s.cfg.layout.ctrl.laneChange,
              BitVec.ofNat 4 (w >>> s.cfg.layout.ctrl.throttle), w.testBit s.cfg.layout.ctrl.fuelMode⟩
      else none))] }) ∧
    (exec (.parsePace w) s = .next { s with out := s.out ++ [.parsed (.pace (
      if w &&& s.cfg.layout.pace.marker.mask = s.cfg.layout.pace.marker.pattern then
        some ⟨w.testBit s.cfg.layout.pace.stopped, w.testBit s.cfg.layout.pace.returnToPit,
              w.testBit s.cfg.layout.pace.active, w.testBit s.cfg.layout.pace.fuelMode⟩
      else none))] }) ∧
    (exec (.parseAct w) s = .next { s with out := s.out ++ [.parsed (.act (
      if w &&& s.cfg.layout.act.marker.mask = s.cfg.layout.act.marker.pattern then
        some ⟨BitVec.ofNat 6 (w >>> s.cfg.layout.act.controllerMask), w.testBit s.cfg.layout.act.anyActive⟩
      else none))] }) ∧
    (exec (.parseAck w) s = .next { s with out := s.out ++ [.parsed (.ack (
      if w &&& s.cfg.layout.ack.marker.mask = s.cfg.layout.ack.marker.pattern then
        some ⟨BitVec.ofNat 8 (w >>> s.cfg.layout.ack.slotMask)⟩
      else none))] })

/-- spec/43_decoder.md R168: a parse succeeds exactly when the marker bits equal the kind's pattern, whatever the other bits. -/
def Obligations.ParseSucceedsExactlyOnTheMarker : Prop :=
  ∀ (P : Config) (k : Kind) (w : Nat),
    (parseOf P k w).success = true ↔ w &&& (P.layout.marker k).mask = (P.layout.marker k).pattern

/-- spec/43_decoder.md R166: every parse of word 0 fails, so a parse that succeeds had a nonzero word. -/
def Obligations.WordZeroFailsEveryParse : Prop :=
  ∀ (P : Config) (k : Kind), P.wf = true →
    (parseOf P k 0).success = false ∧ ∀ w, (parseOf P k w).success = true → w ≠ 0

/-- spec/43_decoder.md R169: for every layout of the block and all field values, the parse of the encoding of a record succeeds
with the same record. -/
def Obligations.ParseOfEncodeIsTheRecord : Prop :=
  ∀ P : Config, P.wf = true →
    (∀ r, parseProg P (encodeProg P r) = some r) ∧ (∀ r, parseCtrl P (encodeCtrl P r) = some r) ∧
    (∀ r, parsePace P (encodePace P r) = some r) ∧ (∀ r, parseAct P (encodeAct P r) = some r) ∧
    (∀ r, parseAck P (encodeAck P r) = some r)

/-- spec/43_decoder.md R171: markers need not exclude each other, since some layout of the block lets one word succeed under two
kinds; in `REF` they do. -/
def Obligations.MarkersExcludeEachOtherInRefNotInGeneral : Prop :=
  (∃ (P : Config) (w : Nat) (k k' : Kind), P.wf = true ∧ k ≠ k' ∧ (parseOf P k w).success = true ∧
    (parseOf P k' w).success = true) ∧
  ∀ (k k' : Kind) (w : Nat), (parseOf REF k w).success = true → (parseOf REF k' w).success = true → k = k'

/-! ### The whole machine -/

/-- spec/10_state.md R33 with RESET, over all operations: who may write what. The clauses on the port-level registers `rd_t0` and
`rd_tmo` are the model's choice (DESIGN CHOICE, notes/assumptions/28.md): R27 has a timed read load them, and that RESET
writes them, an untimed READ `rd_t0`, and no completion either, the spec does not say. `draws` is the model's
(notes/assumptions/3.md). -/
def Obligations.OnlyTheNamedOperationsWriteEachField : Prop :=
  ∀ (i : Instr) (s t : State), exec i s = .next t →
    (t.running ≠ s.running → i = .start ∨ i = .stop ∨ i = .reset) ∧
    (t.seq ≠ s.seq → (i.isEdge = true ∧ s.running = true) ∨ i = .clear ∨ i = .reset) ∧
    (t.lastEdgeTime ≠ s.lastEdgeTime → (i.isEdge = true ∧ s.running = true) ∨ i = .reset) ∧
    (t.slot ≠ s.slot → (i.isEdge = true ∧ s.running = true) ∨ i = .reset ∨
      (t.slot = 0 ∧ .done s.tau (.word s.slot) ∈ t.out.drop s.out.length)) ∧
    (t.rd ≠ s.rd → i = .read ∨ (∃ tmo, i = .readT tmo) ∨ i = .reset ∨
      (t.rd = .none ∧ ∃ u r, .done u r ∈ t.out.drop s.out.length)) ∧
    (t.rdT0 ≠ s.rdT0 → i = .read ∨ (∃ tmo, i = .readT tmo) ∨ i = .reset) ∧
    (t.rdTmo ≠ s.rdTmo → (∃ tmo, i = .readT tmo) ∨ i = .reset) ∧
    (i.isParse = true → ∃ r, t = { s with out := s.out ++ [.parsed r] }) ∧
    (t.draws ≠ s.draws → i = .reset) ∧
    t.cfg = s.cfg ∧ t.tau = s.tau ∧ t.input = s.input ∧ ∃ l, t.out = s.out ++ l

/-- spec/20_memory.md R56, R58: a word that is delivered is not 0 and leaves the slot empty and no read pending; it was the slot's
word, or the word that the delivered edge in hand completed: the accumulator with the edge's bit shifted in at the last
bit, or the operand of PUBLISH. -/
def Obligations.DeliveredWordEmptiesTheSlot : Prop :=
  ∀ (i : Instr) (s t : State) (w u : Nat), exec i s = .next t → .done u (.word w) ∈ t.out.drop s.out.length →
    w ≠ 0 ∧ u = s.tau ∧ t.slot = 0 ∧ t.rd = .none ∧
      (w = s.slot ∨
        (s.running = true ∧ ∃ dt, i = .publish w dt) ∨
        (s.running = true ∧ s.synced = true ∧ s.idx + 1 = s.cfg.n ∧
          ∃ b, w = (2 * s.acc + b.toNat) % 2 ^ s.cfg.n ∧
            ((∃ level, i = .edge level ∧ classify s.cfg s.interval = bitClass b) ∨
              ∃ dt, i = classOp (bitClass b) dt)))

/-- spec/42_read.md R149: from a state of the invariant, an untimed read stops being pending only by the delivery of a nonzero
word at an edge, or by a hardware reset. -/
def Obligations.UntimedReadEndsOnlyByAWord : Prop :=
  ∀ (i : Instr) (s t : State), s.Inv → s.rd = .untimed → exec i s = .next t → t.rd ≠ .untimed →
    i = .reset ∨ (i.isEdge = true ∧ s.running = true ∧ ∃ w, w ≠ 0 ∧ t.out = s.out ++ [.done s.tau (.word w)])

/-- Every step keeps the invariant, from every state that meets it. What `rd_t0` and `rd_tmo` hold while no timed read is pending
is the model's choice (notes/assumptions/28.md). -/
def Obligations.StepKeepsTheInvariant : Prop :=
  ∀ s t : State, s.Inv → step s = .next t → t.Inv

/-- spec/10_state.md R30 (a) to (d), in every execution from reset: any configuration of the block, any value of the unspecified
`last_edge_time`, any script of the environment. -/
def Obligations.ReachableStatesMeetTheFourInvariants : Prop :=
  ∀ s : State, Reachable s →
    s.idx < s.cfg.n ∧ s.acc < 2 ^ s.idx ∧ (s.synced = false → s.acc = 0 ∧ s.idx = 0) ∧ (s.rd ≠ .none → s.slot = 0)

/-- A step keeps the configuration (spec/00_scope.md R7), never takes time back (R15), only adds to what was delivered (R19), and
takes one stimulus from the script (notes/assumptions/5.md). -/
def Obligations.StepKeepsConfigurationTimeAndOutputs : Prop :=
  ∀ s t : State, step s = .next t →
    t.cfg = s.cfg ∧ s.tau ≤ t.tau ∧ t.input = s.input.tail ∧ ∃ l, t.out = s.out ++ l

/-- spec/42_read.md R146: a TICK inserted before a later event changes nothing of what the event leaves. It is stated for a TICK
strictly before the event and an event other than RESET; see notes/assumptions/18.md. -/
def Obligations.InsertedTickChangesNothing : Prop :=
  ∀ (i : Instr) (s u : State) (t1 t2 : Nat), s.Inv → i.isParse = false → i ≠ .reset → t1 < t2 →
    exec .tick { s with tau := t1 } = .next u → exec i { u with tau := t2 } = exec i { s with tau := t2 }

/-- spec/40_classifier.md R111, spec/00_scope.md R12: polarity, pin and pin mode change nothing that a step does, and neither does
the level of an edge. -/
def Obligations.PolarityPinAndLevelAreUnobservable : Prop :=
  (∀ (s : State) (inv : Bool) (pin : Nat) (mode : Option Nat),
    step (repin inv pin mode s) = mapNext (repin inv pin mode) (step s)) ∧
  (∀ s : State, exec (.edge true) s = exec (.edge false) s)

/-! ### Runs -/

/-- spec/40_classifier.md R109, spec/30_encoding.md R74: from any running state of the invariant with no read pending, an edge that ends a
SYNC interval and `P.N` edges that spell `P.N` bits publish exactly the word those bits spell, first bit most
significant, at the last of them and not before. -/
def Obligations.SyncAndBitsPublishTheSpelledWord : Prop :=
  ∀ (s : State) (t0 : Nat) (ts : List Nat) (bs : List Bool) (rest : List Stimulus), s.Inv → s.running = true →
    s.rd = .none → s.input = edgesAt (t0 :: ts) ++ rest → Rising s.tau (t0 :: ts) →
    classify s.cfg (subMod s.cfg.tw (counterAt s.cfg t0) s.lastEdgeTime) = .sync → ts.length = s.cfg.n →
    Spells s.cfg (counterAt s.cfg t0) ts bs →
    (∃ t, Host.Core.run Sys2Proof.core (s.cfg.n + 1) s = .next t ∧ t.slot = wordFrom 0 bs ∧ t.synced = false ∧
      t.acc = 0 ∧ t.idx = 0 ∧ t.rd = .none ∧ t.out = s.out ∧ t.input = rest) ∧
    ∀ k, k ≤ s.cfg.n → ∃ t, Host.Core.run Sys2Proof.core k s = .next t ∧ t.slot = s.slot

/-- The same with a read waiting (spec/42_read.md R145): untimed, or timed with a deadline after the last edge. The reader gets
the word at the time of the last edge and the slot is empty again. -/
def Obligations.WaitingReaderGetsTheSpelledWord : Prop :=
  ∀ (s : State) (t0 tl : Nat) (ts : List Nat) (bs : List Bool) (rest : List Stimulus), s.Inv → s.running = true →
    (s.rd = .untimed ∨ ∃ a m, s.rd = .timed a m ∧ tl < a + m) → s.input = edgesAt (t0 :: ts) ++ rest →
    Rising s.tau (t0 :: ts) → ts.getLast? = some tl →
    classify s.cfg (subMod s.cfg.tw (counterAt s.cfg t0) s.lastEdgeTime) = .sync → ts.length = s.cfg.n →
    Spells s.cfg (counterAt s.cfg t0) ts bs → wordFrom 0 bs ≠ 0 →
    ∃ t, Host.Core.run Sys2Proof.core (s.cfg.n + 1) s = .next t ∧
      t.out = s.out ++ [.done tl (.word (wordFrom 0 bs))] ∧ t.slot = 0 ∧ t.rd = .none ∧ t.input = rest

/-- spec/40_classifier.md R107, R108, R109: after a GLITCH no edge writes the slot until one ends a SYNC interval. -/
def Obligations.GlitchedFrameNeverPublishes : Prop :=
  ∀ (s : State) (g : Nat) (ts : List Nat) (rest : List Stimulus), s.Inv → s.running = true → s.rd = .none →
    s.input = edgesAt (g :: ts) ++ rest → Rising s.tau (g :: ts) →
    classify s.cfg (subMod s.cfg.tw (counterAt s.cfg g) s.lastEdgeTime) = .glitch →
    NoSync s.cfg (counterAt s.cfg g) ts →
    ∃ t, Host.Core.run Sys2Proof.core (ts.length + 1) s = .next t ∧ t.slot = s.slot ∧ t.synced = false ∧
      t.out = s.out ∧ t.input = rest

/-- spec/41_control.md R131: while the block is stopped and no START is presented, whatever else is, no word is ever put in the
slot: it keeps its word or loses it. -/
def Obligations.NoPublicationUntilTheNextStart : Prop :=
  ∀ (k : Nat) (s t : State), s.running = false → (∀ x ∈ s.input, x.isStart = false) →
    Host.Core.run Sys2Proof.core k s = .next t → t.running = false ∧ (t.slot = s.slot ∨ t.slot = 0)

/-- spec/41_control.md R131, one step of it: a stopped block whose script holds no START stays so, and the step puts no word in
the slot: it keeps its word or loses it. -/
def Obligations.StoppedStepPublishesNothing : Prop :=
  ∀ s t : State, s.running = false → (∀ x ∈ s.input, x.isStart = false) → step s = .next t →
    t.running = false ∧ (∀ x ∈ t.input, x.isStart = false) ∧ (t.slot = s.slot ∨ t.slot = 0)

/-- spec/42_read.md R149, for a timed read under any script: a step leaves it pending, or gives it its result with a time no
later than its deadline, or is RESET, which drops it (spec/70_reset_and_hazards.md R200); and an event at or after the
deadline does not leave it pending. -/
def Obligations.TimedReadIsOverAtAnyEventFromItsDeadline : Prop :=
  ∀ (s t : State) (t0 tmo : Nat), s.rd = .timed t0 tmo → step s = .next t →
    (t.rd = .timed t0 tmo ∨ (∃ u r l, u ≤ t0 + tmo ∧ t.out = s.out ++ .done u r :: l) ∨
      decode s.cfg s.seq (nextStimulus s).record = .ok .reset) ∧
    ∀ i, decode s.cfg s.seq (nextStimulus s).record = .ok i → i.isParse = false → i ≠ .reset →
      t0 + tmo ≤ t.tau → t.rd ≠ .timed t0 tmo ∧ ∃ u r l, u ≤ t0 + tmo ∧ t.out = s.out ++ .done u r :: l

/-- spec/42_read.md R149: a timed read completes by its deadline when nothing more is presented. Then the idle ports pass one
microsecond a step (the model's choice, notes/assumptions/6.md), so it completes within that many steps. -/
def Obligations.TimedReadCompletesByItsDeadline : Prop :=
  ∀ (s : State) (t0 tmo : Nat), s.Inv → s.rd = .timed t0 tmo → s.input = [] →
    ∃ k t, k ≤ t0 + tmo - s.tau + 1 ∧ Host.Core.run Sys2Proof.core k s = .next t ∧ t.rd = .none ∧
      t.out = s.out ++ [.done (t0 + tmo) .noData]

/-! ### Ports -/

/-- spec/10_state.md R27, spec/42_read.md R151: while a timed read is pending its registers pass the test
`(now - rd_t0) mod 2^P.TW >= rd_tmo` first at the deadline. -/
def Obligations.CounterTestFirstHoldsAtTheDeadline : Prop :=
  ∀ (s : State) (t0 tmo : Nat), s.Inv → s.rd = .timed t0 tmo → t0 ≤ s.tau → s.tau ≤ t0 + tmo →
    (s.timedOutAtPorts = true ↔ s.tau = t0 + tmo)

/-- spec/70_reset_and_hazards.md R213: a clock cycle is the run of its events, the edge before the command, all at the cycle's
time. A cycle in reset is the reset alone (the model's reading, notes/assumptions/21.md). -/
def Obligations.PortCycleIsTheRunOfItsEvents : Prop :=
  ∀ (p : PortIn) (s : State), s.cfg.wf = true → p.wf s.cfg = true → s.tau ≤ p.tau →
    Host.Core.run Sys2Proof.core p.events.length { s with input := p.stimuli ++ s.input } = cycle p s

/-- spec/70_reset_and_hazards.md R213: a caller that issues no read while one is pending gets at most one result a cycle. -/
def Obligations.AtMostOneReadResultPerCycle : Prop :=
  ∀ (p : PortIn) (s t : State), p.conforms s = true → cycle p s = .next t → (doneBetween s t).length ≤ 1

/-- spec/70_reset_and_hazards.md R213, spec/10_state.md R29, R37, spec/43_decoder.md R172: in a cycle that runs, `irq_en`, `slot_valid`
and `rd_busy` are those of the state, the one after the cycle's events (the model's choice, notes/assumptions/29.md), and
each parse output is the parse of `parse_word`, in whatever state. -/
def Obligations.StatusAndParseOutputsOfACycle : Prop :=
  ∀ (p : PortIn) (s t : State), cycle p s = .next t →
    ((portOut p s t).irqEn = true ↔ t.running = true) ∧ ((portOut p s t).slotValid = true ↔ t.slot ≠ 0) ∧
    ((portOut p s t).rdBusy = true ↔ t.rd ≠ .none) ∧
    (portOut p s t).prog = parseProg s.cfg p.parseWord ∧ (portOut p s t).ctrl = parseCtrl s.cfg p.parseWord ∧
    (portOut p s t).pace = parsePace s.cfg p.parseWord ∧ (portOut p s t).act = parseAct s.cfg p.parseWord ∧
    (portOut p s t).ack = parseAck s.cfg p.parseWord

/-- spec/70_reset_and_hazards.md R213, spec/30_encoding.md R87: in a cycle that issues no read while one is pending, `rd_done` is 1
exactly when a read result is delivered, and then it is the only output, `rd_nodata` tells no data, and `rd_word` is the word,
which is not 0. -/
def Obligations.ReadOutputsShowTheResultOfTheCycle : Prop :=
  ∀ (p : PortIn) (s t : State), p.conforms s = true → cycle p s = .next t →
    ((portOut p s t).rdDone = false → t.out = s.out) ∧
    ((portOut p s t).rdDone = true → ∃ u,
      (t.out = s.out ++ [.done u .noData] ∧ (portOut p s t).rdNodata = some true) ∨
      ∃ w, w ≠ 0 ∧ t.out = s.out ++ [.done u (.word w)] ∧ (portOut p s t).rdNodata = some false ∧
        (portOut p s t).rdWord = some w)

/-- spec/30_encoding.md R87: in the software encoding words and no data are distinct values. -/
def Obligations.ReadResultsEncodeApart : Prop :=
  ∀ r r' : ReadResult, r.toInt = r'.toInt → r = r'
end

