-- ==== Sys2Proof/Laws/State.lean ====
section
/-! SUPPORT. Each field after each update of the state: one lemma per field per update, so that no proof unfolds a record
update. -/

namespace Sys2Proof.Machine

@[simp] theorem setRunning_cfg (s : State) (b : Bool) : (s.setRunning b).cfg = s.cfg := rfl
@[simp] theorem setRunning_running (s : State) (b : Bool) : (s.setRunning b).running = b := rfl
@[simp] theorem setRunning_synced (s : State) (b : Bool) : (s.setRunning b).synced = s.synced := rfl
@[simp] theorem setRunning_acc (s : State) (b : Bool) : (s.setRunning b).acc = s.acc := rfl
@[simp] theorem setRunning_idx (s : State) (b : Bool) : (s.setRunning b).idx = s.idx := rfl
@[simp] theorem setRunning_lastEdgeTime (s : State) (b : Bool) : (s.setRunning b).lastEdgeTime = s.lastEdgeTime := rfl
@[simp] theorem setRunning_slot (s : State) (b : Bool) : (s.setRunning b).slot = s.slot := rfl
@[simp] theorem setRunning_rd (s : State) (b : Bool) : (s.setRunning b).rd = s.rd := rfl
@[simp] theorem setRunning_rdT0 (s : State) (b : Bool) : (s.setRunning b).rdT0 = s.rdT0 := rfl
@[simp] theorem setRunning_rdTmo (s : State) (b : Bool) : (s.setRunning b).rdTmo = s.rdTmo := rfl
@[simp] theorem setRunning_tau (s : State) (b : Bool) : (s.setRunning b).tau = s.tau := rfl
@[simp] theorem setRunning_input (s : State) (b : Bool) : (s.setRunning b).input = s.input := rfl
@[simp] theorem setRunning_out (s : State) (b : Bool) : (s.setRunning b).out = s.out := rfl
@[simp] theorem setRunning_draws (s : State) (b : Bool) : (s.setRunning b).draws = s.draws := rfl

@[simp] theorem setRd_cfg (s : State) (r : PendingRead) : (s.setRd r).cfg = s.cfg := rfl
@[simp] theorem setRd_running (s : State) (r : PendingRead) : (s.setRd r).running = s.running := rfl
@[simp] theorem setRd_synced (s : State) (r : PendingRead) : (s.setRd r).synced = s.synced := rfl
@[simp] theorem setRd_acc (s : State) (r : PendingRead) : (s.setRd r).acc = s.acc := rfl
@[simp] theorem setRd_idx (s : State) (r : PendingRead) : (s.setRd r).idx = s.idx := rfl
@[simp] theorem setRd_lastEdgeTime (s : State) (r : PendingRead) : (s.setRd r).lastEdgeTime = s.lastEdgeTime := rfl
@[simp] theorem setRd_slot (s : State) (r : PendingRead) : (s.setRd r).slot = s.slot := rfl
@[simp] theorem setRd_rd (s : State) (r : PendingRead) : (s.setRd r).rd = r := rfl
@[simp] theorem setRd_rdT0 (s : State) (r : PendingRead) : (s.setRd r).rdT0 = s.rdT0 := rfl
@[simp] theorem setRd_rdTmo (s : State) (r : PendingRead) : (s.setRd r).rdTmo = s.rdTmo := rfl
@[simp] theorem setRd_tau (s : State) (r : PendingRead) : (s.setRd r).tau = s.tau := rfl
@[simp] theorem setRd_input (s : State) (r : PendingRead) : (s.setRd r).input = s.input := rfl
@[simp] theorem setRd_out (s : State) (r : PendingRead) : (s.setRd r).out = s.out := rfl
@[simp] theorem setRd_draws (s : State) (r : PendingRead) : (s.setRd r).draws = s.draws := rfl

@[simp] theorem loadReadRegs_cfg (s : State) (r : PendingRead) : (s.loadReadRegs r).cfg = s.cfg := by
  cases r <;> rfl
@[simp] theorem loadReadRegs_running (s : State) (r : PendingRead) : (s.loadReadRegs r).running = s.running := by
  cases r <;> rfl
@[simp] theorem loadReadRegs_synced (s : State) (r : PendingRead) : (s.loadReadRegs r).synced = s.synced := by
  cases r <;> rfl
@[simp] theorem loadReadRegs_acc (s : State) (r : PendingRead) : (s.loadReadRegs r).acc = s.acc := by
  cases r <;> rfl
@[simp] theorem loadReadRegs_idx (s : State) (r : PendingRead) : (s.loadReadRegs r).idx = s.idx := by
  cases r <;> rfl
@[simp] theorem loadReadRegs_lastEdgeTime (s : State) (r : PendingRead) : (s.loadReadRegs r).lastEdgeTime = s.lastEdgeTime := by
  cases r <;> rfl
@[simp] theorem loadReadRegs_slot (s : State) (r : PendingRead) : (s.loadReadRegs r).slot = s.slot := by
  cases r <;> rfl
@[simp] theorem loadReadRegs_rd (s : State) (r : PendingRead) : (s.loadReadRegs r).rd = s.rd := by
  cases r <;> rfl
@[simp] theorem loadReadRegs_tau (s : State) (r : PendingRead) : (s.loadReadRegs r).tau = s.tau := by
  cases r <;> rfl
@[simp] theorem loadReadRegs_input (s : State) (r : PendingRead) : (s.loadReadRegs r).input = s.input := by
  cases r <;> rfl
@[simp] theorem loadReadRegs_out (s : State) (r : PendingRead) : (s.loadReadRegs r).out = s.out := by
  cases r <;> rfl
@[simp] theorem loadReadRegs_draws (s : State) (r : PendingRead) : (s.loadReadRegs r).draws = s.draws := by
  cases r <;> rfl
@[simp] theorem loadReadRegs_rdT0 (s : State) (r : PendingRead) : (s.loadReadRegs r).rdT0 = s.now := by
  cases r <;> rfl
@[simp] theorem loadReadRegs_timed_rdTmo (s : State) (t0 tmo : Nat) :
    (s.loadReadRegs (.timed t0 tmo)).rdTmo = tmo := rfl
@[simp] theorem loadReadRegs_untimed_rdTmo (s : State) : (s.loadReadRegs .untimed).rdTmo = s.rdTmo := rfl

@[simp] theorem setSeq_cfg (s : State) (b : Bool) (a : Nat) (k : Nat) : (s.setSeq b a k).cfg = s.cfg := rfl
@[simp] theorem setSeq_running (s : State) (b : Bool) (a : Nat) (k : Nat) : (s.setSeq b a k).running = s.running := rfl
@[simp] theorem setSeq_synced (s : State) (b : Bool) (a : Nat) (k : Nat) : (s.setSeq b a k).synced = b := rfl
@[simp] theorem setSeq_acc (s : State) (b : Bool) (a : Nat) (k : Nat) : (s.setSeq b a k).acc = a := rfl
@[simp] theorem setSeq_idx (s : State) (b : Bool) (a : Nat) (k : Nat) : (s.setSeq b a k).idx = k := rfl
@[simp] theorem setSeq_lastEdgeTime (s : State) (b : Bool) (a : Nat) (k : Nat) : (s.setSeq b a k).lastEdgeTime = s.lastEdgeTime := rfl
@[simp] theorem setSeq_slot (s : State) (b : Bool) (a : Nat) (k : Nat) : (s.setSeq b a k).slot = s.slot := rfl
@[simp] theorem setSeq_rd (s : State) (b : Bool) (a : Nat) (k : Nat) : (s.setSeq b a k).rd = s.rd := rfl
@[simp] theorem setSeq_rdT0 (s : State) (b : Bool) (a : Nat) (k : Nat) : (s.setSeq b a k).rdT0 = s.rdT0 := rfl
@[simp] theorem setSeq_rdTmo (s : State) (b : Bool) (a : Nat) (k : Nat) : (s.setSeq b a k).rdTmo = s.rdTmo := rfl
@[simp] theorem setSeq_tau (s : State) (b : Bool) (a : Nat) (k : Nat) : (s.setSeq b a k).tau = s.tau := rfl
@[simp] theorem setSeq_input (s : State) (b : Bool) (a : Nat) (k : Nat) : (s.setSeq b a k).input = s.input := rfl
@[simp] theorem setSeq_out (s : State) (b : Bool) (a : Nat) (k : Nat) : (s.setSeq b a k).out = s.out := rfl
@[simp] theorem setSeq_draws (s : State) (b : Bool) (a : Nat) (k : Nat) : (s.setSeq b a k).draws = s.draws := rfl

@[simp] theorem markEdge_cfg (s : State) : (s.markEdge).cfg = s.cfg := rfl
@[simp] theorem markEdge_running (s : State) : (s.markEdge).running = s.running := rfl
@[simp] theorem markEdge_synced (s : State) : (s.markEdge).synced = s.synced := rfl
@[simp] theorem markEdge_acc (s : State) : (s.markEdge).acc = s.acc := rfl
@[simp] theorem markEdge_idx (s : State) : (s.markEdge).idx = s.idx := rfl
@[simp] theorem markEdge_lastEdgeTime (s : State) : (s.markEdge).lastEdgeTime = s.now := rfl
@[simp] theorem markEdge_slot (s : State) : (s.markEdge).slot = s.slot := rfl
@[simp] theorem markEdge_rd (s : State) : (s.markEdge).rd = s.rd := rfl
@[simp] theorem markEdge_rdT0 (s : State) : (s.markEdge).rdT0 = s.rdT0 := rfl
@[simp] theorem markEdge_rdTmo (s : State) : (s.markEdge).rdTmo = s.rdTmo := rfl
@[simp] theorem markEdge_tau (s : State) : (s.markEdge).tau = s.tau := rfl
@[simp] theorem markEdge_input (s : State) : (s.markEdge).input = s.input := rfl
@[simp] theorem markEdge_out (s : State) : (s.markEdge).out = s.out := rfl
@[simp] theorem markEdge_draws (s : State) : (s.markEdge).draws = s.draws := rfl

@[simp] theorem emit_cfg (s : State) (o : Output) : (s.emit o).cfg = s.cfg := rfl
@[simp] theorem emit_running (s : State) (o : Output) : (s.emit o).running = s.running := rfl
@[simp] theorem emit_synced (s : State) (o : Output) : (s.emit o).synced = s.synced := rfl
@[simp] theorem emit_acc (s : State) (o : Output) : (s.emit o).acc = s.acc := rfl
@[simp] theorem emit_idx (s : State) (o : Output) : (s.emit o).idx = s.idx := rfl
@[simp] theorem emit_lastEdgeTime (s : State) (o : Output) : (s.emit o).lastEdgeTime = s.lastEdgeTime := rfl
@[simp] theorem emit_slot (s : State) (o : Output) : (s.emit o).slot = s.slot := rfl
@[simp] theorem emit_rd (s : State) (o : Output) : (s.emit o).rd = s.rd := rfl
@[simp] theorem emit_rdT0 (s : State) (o : Output) : (s.emit o).rdT0 = s.rdT0 := rfl
@[simp] theorem emit_rdTmo (s : State) (o : Output) : (s.emit o).rdTmo = s.rdTmo := rfl
@[simp] theorem emit_tau (s : State) (o : Output) : (s.emit o).tau = s.tau := rfl
@[simp] theorem emit_input (s : State) (o : Output) : (s.emit o).input = s.input := rfl
@[simp] theorem emit_out (s : State) (o : Output) : (s.emit o).out = s.out ++ [o] := rfl
@[simp] theorem emit_draws (s : State) (o : Output) : (s.emit o).draws = s.draws := rfl

@[simp] theorem memWrite_cfg (s : State) (v : Nat) : (memWrite s v).cfg = s.cfg := rfl
@[simp] theorem memWrite_running (s : State) (v : Nat) : (memWrite s v).running = s.running := rfl
@[simp] theorem memWrite_synced (s : State) (v : Nat) : (memWrite s v).synced = s.synced := rfl
@[simp] theorem memWrite_acc (s : State) (v : Nat) : (memWrite s v).acc = s.acc := rfl
@[simp] theorem memWrite_idx (s : State) (v : Nat) : (memWrite s v).idx = s.idx := rfl
@[simp] theorem memWrite_lastEdgeTime (s : State) (v : Nat) : (memWrite s v).lastEdgeTime = s.lastEdgeTime := rfl
@[simp] theorem memWrite_slot (s : State) (v : Nat) : (memWrite s v).slot = v := rfl
@[simp] theorem memWrite_rd (s : State) (v : Nat) : (memWrite s v).rd = s.rd := rfl
@[simp] theorem memWrite_rdT0 (s : State) (v : Nat) : (memWrite s v).rdT0 = s.rdT0 := rfl
@[simp] theorem memWrite_rdTmo (s : State) (v : Nat) : (memWrite s v).rdTmo = s.rdTmo := rfl
@[simp] theorem memWrite_tau (s : State) (v : Nat) : (memWrite s v).tau = s.tau := rfl
@[simp] theorem memWrite_input (s : State) (v : Nat) : (memWrite s v).input = s.input := rfl
@[simp] theorem memWrite_out (s : State) (v : Nat) : (memWrite s v).out = s.out := rfl
@[simp] theorem memWrite_draws (s : State) (v : Nat) : (memWrite s v).draws = s.draws := rfl

@[simp] theorem finishRead_cfg (s : State) (t : Nat) (r : ReadResult) : (finishRead s t r).cfg = s.cfg := rfl
@[simp] theorem finishRead_running (s : State) (t : Nat) (r : ReadResult) : (finishRead s t r).running = s.running := rfl
@[simp] theorem finishRead_synced (s : State) (t : Nat) (r : ReadResult) : (finishRead s t r).synced = s.synced := rfl
@[simp] theorem finishRead_acc (s : State) (t : Nat) (r : ReadResult) : (finishRead s t r).acc = s.acc := rfl
@[simp] theorem finishRead_idx (s : State) (t : Nat) (r : ReadResult) : (finishRead s t r).idx = s.idx := rfl
@[simp] theorem finishRead_lastEdgeTime (s : State) (t : Nat) (r : ReadResult) : (finishRead s t r).lastEdgeTime = s.lastEdgeTime := rfl
@[simp] theorem finishRead_slot (s : State) (t : Nat) (r : ReadResult) : (finishRead s t r).slot = s.slot := rfl
@[simp] theorem finishRead_rd (s : State) (t : Nat) (r : ReadResult) : (finishRead s t r).rd = .none := rfl
@[simp] theorem finishRead_rdT0 (s : State) (t : Nat) (r : ReadResult) : (finishRead s t r).rdT0 = s.rdT0 := rfl
@[simp] theorem finishRead_rdTmo (s : State) (t : Nat) (r : ReadResult) : (finishRead s t r).rdTmo = s.rdTmo := rfl
@[simp] theorem finishRead_tau (s : State) (t : Nat) (r : ReadResult) : (finishRead s t r).tau = s.tau := rfl
@[simp] theorem finishRead_input (s : State) (t : Nat) (r : ReadResult) : (finishRead s t r).input = s.input := rfl
@[simp] theorem finishRead_out (s : State) (t : Nat) (r : ReadResult) : (finishRead s t r).out = s.out ++ [.done t r] := rfl
@[simp] theorem finishRead_draws (s : State) (t : Nat) (r : ReadResult) : (finishRead s t r).draws = s.draws := rfl

@[simp] theorem deliverWord_cfg (s : State) : (deliverWord s).cfg = s.cfg := rfl
@[simp] theorem deliverWord_running (s : State) : (deliverWord s).running = s.running := rfl
@[simp] theorem deliverWord_synced (s : State) : (deliverWord s).synced = s.synced := rfl
@[simp] theorem deliverWord_acc (s : State) : (deliverWord s).acc = s.acc := rfl
@[simp] theorem deliverWord_idx (s : State) : (deliverWord s).idx = s.idx := rfl
@[simp] theorem deliverWord_lastEdgeTime (s : State) : (deliverWord s).lastEdgeTime = s.lastEdgeTime := rfl
@[simp] theorem deliverWord_slot (s : State) : (deliverWord s).slot = 0 := rfl
@[simp] theorem deliverWord_rd (s : State) : (deliverWord s).rd = .none := rfl
@[simp] theorem deliverWord_rdT0 (s : State) : (deliverWord s).rdT0 = s.rdT0 := rfl
@[simp] theorem deliverWord_rdTmo (s : State) : (deliverWord s).rdTmo = s.rdTmo := rfl
@[simp] theorem deliverWord_tau (s : State) : (deliverWord s).tau = s.tau := rfl
@[simp] theorem deliverWord_input (s : State) : (deliverWord s).input = s.input := rfl
@[simp] theorem deliverWord_out (s : State) : (deliverWord s).out = s.out ++ [.done s.tau (.word s.slot)] := rfl
@[simp] theorem deliverWord_draws (s : State) : (deliverWord s).draws = s.draws := rfl

@[simp] theorem hunt_cfg (s : State) : (hunt s).cfg = s.cfg := rfl
@[simp] theorem hunt_running (s : State) : (hunt s).running = s.running := rfl
@[simp] theorem hunt_synced (s : State) : (hunt s).synced = false := rfl
@[simp] theorem hunt_acc (s : State) : (hunt s).acc = 0 := rfl
@[simp] theorem hunt_idx (s : State) : (hunt s).idx = 0 := rfl
@[simp] theorem hunt_lastEdgeTime (s : State) : (hunt s).lastEdgeTime = s.lastEdgeTime := rfl
@[simp] theorem hunt_slot (s : State) : (hunt s).slot = s.slot := rfl
@[simp] theorem hunt_rd (s : State) : (hunt s).rd = s.rd := rfl
@[simp] theorem hunt_rdT0 (s : State) : (hunt s).rdT0 = s.rdT0 := rfl
@[simp] theorem hunt_rdTmo (s : State) : (hunt s).rdTmo = s.rdTmo := rfl
@[simp] theorem hunt_tau (s : State) : (hunt s).tau = s.tau := rfl
@[simp] theorem hunt_input (s : State) : (hunt s).input = s.input := rfl
@[simp] theorem hunt_out (s : State) : (hunt s).out = s.out := rfl
@[simp] theorem hunt_draws (s : State) : (hunt s).draws = s.draws := rfl

@[simp] theorem syncRule_cfg (s : State) : (syncRule s).cfg = s.cfg := rfl
@[simp] theorem syncRule_running (s : State) : (syncRule s).running = s.running := rfl
@[simp] theorem syncRule_synced (s : State) : (syncRule s).synced = true := rfl
@[simp] theorem syncRule_acc (s : State) : (syncRule s).acc = 0 := rfl
@[simp] theorem syncRule_idx (s : State) : (syncRule s).idx = 0 := rfl
@[simp] theorem syncRule_lastEdgeTime (s : State) : (syncRule s).lastEdgeTime = s.lastEdgeTime := rfl
@[simp] theorem syncRule_slot (s : State) : (syncRule s).slot = s.slot := rfl
@[simp] theorem syncRule_rd (s : State) : (syncRule s).rd = s.rd := rfl
@[simp] theorem syncRule_rdT0 (s : State) : (syncRule s).rdT0 = s.rdT0 := rfl
@[simp] theorem syncRule_rdTmo (s : State) : (syncRule s).rdTmo = s.rdTmo := rfl
@[simp] theorem syncRule_tau (s : State) : (syncRule s).tau = s.tau := rfl
@[simp] theorem syncRule_input (s : State) : (syncRule s).input = s.input := rfl
@[simp] theorem syncRule_out (s : State) : (syncRule s).out = s.out := rfl
@[simp] theorem syncRule_draws (s : State) : (syncRule s).draws = s.draws := rfl

@[simp] theorem glitchRule_cfg (s : State) : (glitchRule s).cfg = s.cfg := rfl
@[simp] theorem glitchRule_running (s : State) : (glitchRule s).running = s.running := rfl
@[simp] theorem glitchRule_synced (s : State) : (glitchRule s).synced = false := rfl
@[simp] theorem glitchRule_acc (s : State) : (glitchRule s).acc = 0 := rfl
@[simp] theorem glitchRule_idx (s : State) : (glitchRule s).idx = 0 := rfl
@[simp] theorem glitchRule_lastEdgeTime (s : State) : (glitchRule s).lastEdgeTime = s.lastEdgeTime := rfl
@[simp] theorem glitchRule_slot (s : State) : (glitchRule s).slot = s.slot := rfl
@[simp] theorem glitchRule_rd (s : State) : (glitchRule s).rd = s.rd := rfl
@[simp] theorem glitchRule_rdT0 (s : State) : (glitchRule s).rdT0 = s.rdT0 := rfl
@[simp] theorem glitchRule_rdTmo (s : State) : (glitchRule s).rdTmo = s.rdTmo := rfl
@[simp] theorem glitchRule_tau (s : State) : (glitchRule s).tau = s.tau := rfl
@[simp] theorem glitchRule_input (s : State) : (glitchRule s).input = s.input := rfl
@[simp] theorem glitchRule_out (s : State) : (glitchRule s).out = s.out := rfl
@[simp] theorem glitchRule_draws (s : State) : (glitchRule s).draws = s.draws := rfl

@[simp] theorem publishRule_cfg (s : State) (a : Nat) : (publishRule a s).cfg = s.cfg := rfl
@[simp] theorem publishRule_running (s : State) (a : Nat) : (publishRule a s).running = s.running := rfl
@[simp] theorem publishRule_synced (s : State) (a : Nat) : (publishRule a s).synced = false := rfl
@[simp] theorem publishRule_acc (s : State) (a : Nat) : (publishRule a s).acc = 0 := rfl
@[simp] theorem publishRule_idx (s : State) (a : Nat) : (publishRule a s).idx = 0 := rfl
@[simp] theorem publishRule_lastEdgeTime (s : State) (a : Nat) : (publishRule a s).lastEdgeTime = s.lastEdgeTime := rfl
@[simp] theorem publishRule_slot (s : State) (a : Nat) : (publishRule a s).slot = a := rfl
@[simp] theorem publishRule_rd (s : State) (a : Nat) : (publishRule a s).rd = s.rd := rfl
@[simp] theorem publishRule_rdT0 (s : State) (a : Nat) : (publishRule a s).rdT0 = s.rdT0 := rfl
@[simp] theorem publishRule_rdTmo (s : State) (a : Nat) : (publishRule a s).rdTmo = s.rdTmo := rfl
@[simp] theorem publishRule_tau (s : State) (a : Nat) : (publishRule a s).tau = s.tau := rfl
@[simp] theorem publishRule_input (s : State) (a : Nat) : (publishRule a s).input = s.input := rfl
@[simp] theorem publishRule_out (s : State) (a : Nat) : (publishRule a s).out = s.out := rfl
@[simp] theorem publishRule_draws (s : State) (a : Nat) : (publishRule a s).draws = s.draws := rfl

@[simp] theorem resetRule_cfg (s : State) : (resetRule s).cfg = s.cfg := rfl
@[simp] theorem resetRule_running (s : State) : (resetRule s).running = false := rfl
@[simp] theorem resetRule_synced (s : State) : (resetRule s).synced = false := rfl
@[simp] theorem resetRule_acc (s : State) : (resetRule s).acc = 0 := rfl
@[simp] theorem resetRule_idx (s : State) : (resetRule s).idx = 0 := rfl
@[simp] theorem resetRule_lastEdgeTime (s : State) : (resetRule s).lastEdgeTime = freeDraw s.draws % 2 ^ s.cfg.tw := rfl
@[simp] theorem resetRule_slot (s : State) : (resetRule s).slot = 0 := rfl
@[simp] theorem resetRule_rd (s : State) : (resetRule s).rd = .none := rfl
@[simp] theorem resetRule_rdT0 (s : State) : (resetRule s).rdT0 = 0 := rfl
@[simp] theorem resetRule_rdTmo (s : State) : (resetRule s).rdTmo = 0 := rfl
@[simp] theorem resetRule_tau (s : State) : (resetRule s).tau = s.tau := rfl
@[simp] theorem resetRule_input (s : State) : (resetRule s).input = s.input := rfl
@[simp] theorem resetRule_out (s : State) : (resetRule s).out = s.out := rfl
@[simp] theorem resetRule_draws (s : State) : (resetRule s).draws = s.draws + 1 := rfl

@[simp] theorem callParse_cfg (s : State) (k : Kind) (w : Nat) : (callParse k w s).cfg = s.cfg := rfl
@[simp] theorem callParse_running (s : State) (k : Kind) (w : Nat) : (callParse k w s).running = s.running := rfl
@[simp] theorem callParse_synced (s : State) (k : Kind) (w : Nat) : (callParse k w s).synced = s.synced := rfl
@[simp] theorem callParse_acc (s : State) (k : Kind) (w : Nat) : (callParse k w s).acc = s.acc := rfl
@[simp] theorem callParse_idx (s : State) (k : Kind) (w : Nat) : (callParse k w s).idx = s.idx := rfl
@[simp] theorem callParse_lastEdgeTime (s : State) (k : Kind) (w : Nat) : (callParse k w s).lastEdgeTime = s.lastEdgeTime := rfl
@[simp] theorem callParse_slot (s : State) (k : Kind) (w : Nat) : (callParse k w s).slot = s.slot := rfl
@[simp] theorem callParse_rd (s : State) (k : Kind) (w : Nat) : (callParse k w s).rd = s.rd := rfl
@[simp] theorem callParse_rdT0 (s : State) (k : Kind) (w : Nat) : (callParse k w s).rdT0 = s.rdT0 := rfl
@[simp] theorem callParse_rdTmo (s : State) (k : Kind) (w : Nat) : (callParse k w s).rdTmo = s.rdTmo := rfl
@[simp] theorem callParse_tau (s : State) (k : Kind) (w : Nat) : (callParse k w s).tau = s.tau := rfl
@[simp] theorem callParse_input (s : State) (k : Kind) (w : Nat) : (callParse k w s).input = s.input := rfl
@[simp] theorem callParse_out (s : State) (k : Kind) (w : Nat) : (callParse k w s).out = s.out ++ [.parsed (parseOf s.cfg k w)] := rfl
@[simp] theorem callParse_draws (s : State) (k : Kind) (w : Nat) : (callParse k w s).draws = s.draws := rfl

@[simp] theorem consume_cfg (s : State) (x : Stimulus) : (consume s x).cfg = s.cfg := rfl
@[simp] theorem consume_running (s : State) (x : Stimulus) : (consume s x).running = s.running := rfl
@[simp] theorem consume_synced (s : State) (x : Stimulus) : (consume s x).synced = s.synced := rfl
@[simp] theorem consume_acc (s : State) (x : Stimulus) : (consume s x).acc = s.acc := rfl
@[simp] theorem consume_idx (s : State) (x : Stimulus) : (consume s x).idx = s.idx := rfl
@[simp] theorem consume_lastEdgeTime (s : State) (x : Stimulus) : (consume s x).lastEdgeTime = s.lastEdgeTime := rfl
@[simp] theorem consume_slot (s : State) (x : Stimulus) : (consume s x).slot = s.slot := rfl
@[simp] theorem consume_rd (s : State) (x : Stimulus) : (consume s x).rd = s.rd := rfl
@[simp] theorem consume_rdT0 (s : State) (x : Stimulus) : (consume s x).rdT0 = s.rdT0 := rfl
@[simp] theorem consume_rdTmo (s : State) (x : Stimulus) : (consume s x).rdTmo = s.rdTmo := rfl
@[simp] theorem consume_tau (s : State) (x : Stimulus) : (consume s x).tau = stimulusTime s x := rfl
@[simp] theorem consume_input (s : State) (x : Stimulus) : (consume s x).input = s.input.tail := rfl
@[simp] theorem consume_out (s : State) (x : Stimulus) : (consume s x).out = s.out := rfl
@[simp] theorem consume_draws (s : State) (x : Stimulus) : (consume s x).draws = s.draws := rfl

end Sys2Proof.Machine
end

