-- ==== Sys2Proof/Laws/Ops.lean ====
section
/-! SUPPORT. What each shared operation can do, said once; the provers cite these instead of unfolding the operation. -/

namespace Sys2Proof.Machine

/-! ### Modular subtraction and the accumulator -/

theorem subMod_lt (k a b : Nat) : subMod k a b < 2 ^ k := Nat.mod_lt _ (Nat.two_pow_pos k)

/-- The bit enters at the bottom of the doubled accumulator. -/
theorem shiftIn_eq (P : Config) (acc : Nat) (b : Bool) :
    shiftIn P acc b = (2 * acc + b.toNat) % 2 ^ P.n := by
  unfold shiftIn
  cases b
  · simp [Nat.shiftLeft_eq, Nat.mul_comm]
  · have h : acc <<< 1 ||| 1 = 2 * acc + 1 := by
      rw [Nat.shiftLeft_eq, pow_one, Nat.mul_comm]
      exact (Nat.two_pow_add_eq_or_of_lt (i := 1) (b := 1) (by decide) acc).symm
    simp [h]

theorem shiftIn_lt (P : Config) (acc : Nat) (b : Bool) : shiftIn P acc b < 2 ^ P.n :=
  Nat.mod_lt _ (Nat.two_pow_pos P.n)

/-- "The `mod 2^P.N` never cuts a bit off" (spec/40_classifier.md R104). -/
theorem shiftIn_exact (P : Config) (acc k : Nat) (b : Bool) (h : acc < 2 ^ k) (hk : k < P.n) :
    shiftIn P acc b = 2 * acc + b.toNat := by
  rw [shiftIn_eq]
  have hb : b.toNat ≤ 1 := Bool.toNat_le b
  have hp : 2 ^ (k + 1) ≤ 2 ^ P.n := Nat.pow_le_pow_right (by decide) hk
  rw [Nat.pow_succ] at hp
  exact Nat.mod_eq_of_lt (by omega)

/-- The next bit completes the word: "S.synced = 1 and S.idx = P.N-1". -/
theorem completes_iff (P : Config) (q : Seq) : q.completes P = true ↔ q.synced = true ∧ q.idx + 1 = P.n := by
  unfold Seq.completes
  rw [Bool.and_eq_true, decide_eq_true_eq]

/-! ### The phases -/

/-- `expire` does nothing, or completes a timed read whose deadline has passed. -/
theorem expire_cases (s : State) :
    (expire s = s ∧ ∀ t0 tmo, s.rd = .timed t0 tmo → s.tau ≤ deadline t0 tmo) ∨
      ∃ t0 tmo, s.rd = .timed t0 tmo ∧ deadline t0 tmo < s.tau ∧
        expire s = finishRead s (deadline t0 tmo) .noData := by
  unfold expire
  cases h : s.rd with
  | none => simp
  | untimed => simp
  | timed t0 tmo =>
    by_cases hd : s.tau > deadline t0 tmo
    · exact .inr ⟨t0, tmo, rfl, hd, by simp [hd]⟩
    · refine .inl ⟨by simp [hd], ?_⟩
      intro a b hab
      cases hab
      omega

theorem expire_of_none (s : State) (h : s.rd = .none) : expire s = s := by simp [expire, h]

theorem expire_of_untimed (s : State) (h : s.rd = .untimed) : expire s = s := by simp [expire, h]

/-- `resolve` does nothing, delivers the word in the slot, or completes a timed read at its deadline. -/
theorem resolve_cases (s : State) :
    (resolve s = s ∧ (s.rd = .none ∨
        s.slot = 0 ∧ ∀ t0 tmo, s.rd = .timed t0 tmo → s.tau < deadline t0 tmo)) ∨
      (s.rd ≠ .none ∧ s.slot ≠ 0 ∧ resolve s = deliverWord s) ∨
      ∃ t0 tmo, s.rd = .timed t0 tmo ∧ s.slot = 0 ∧ deadline t0 tmo ≤ s.tau ∧
        resolve s = finishRead s s.tau .noData := by
  unfold resolve memRead
  cases h : s.rd with
  | none => simp
  | untimed => by_cases h0 : s.slot = 0 <;> simp [h0]
  | timed t0 tmo =>
    by_cases h0 : s.slot = 0
    · by_cases hd : s.tau ≥ deadline t0 tmo
      · exact .inr (.inr ⟨t0, tmo, rfl, h0, hd, by simp [h0, hd]⟩)
      · refine .inl ⟨by simp [h0, hd], .inr ⟨h0, ?_⟩⟩
        intro a b hab
        cases hab
        omega
    · exact .inr (.inl ⟨by simp, h0, by simp [h0]⟩)

theorem resolve_of_none (s : State) (h : s.rd = .none) : resolve s = s := by simp [resolve, h]

/-- No read is pending beside a held word once `resolve` has run (spec/10_state.md R30 (d)). -/
theorem resolve_reading (s : State) : (resolve s).rd ≠ .none → (resolve s).slot = 0 := by
  rcases resolve_cases s with ⟨h, h' | h'⟩ | ⟨-, -, h⟩ | ⟨_, _, -, -, -, h⟩ <;> rw [h]
  · simp [h']
  · exact fun _ => h'.1
  · simp
  · simp

@[simp] theorem expire_cfg (s : State) : (expire s).cfg = s.cfg := by
  rcases expire_cases s with ⟨h, -⟩ | ⟨_, _, -, -, h⟩ <;> simp [h]
@[simp] theorem expire_running (s : State) : (expire s).running = s.running := by
  rcases expire_cases s with ⟨h, -⟩ | ⟨_, _, -, -, h⟩ <;> simp [h]
@[simp] theorem expire_synced (s : State) : (expire s).synced = s.synced := by
  rcases expire_cases s with ⟨h, -⟩ | ⟨_, _, -, -, h⟩ <;> simp [h]
@[simp] theorem expire_acc (s : State) : (expire s).acc = s.acc := by
  rcases expire_cases s with ⟨h, -⟩ | ⟨_, _, -, -, h⟩ <;> simp [h]
@[simp] theorem expire_idx (s : State) : (expire s).idx = s.idx := by
  rcases expire_cases s with ⟨h, -⟩ | ⟨_, _, -, -, h⟩ <;> simp [h]
@[simp] theorem expire_lastEdgeTime (s : State) : (expire s).lastEdgeTime = s.lastEdgeTime := by
  rcases expire_cases s with ⟨h, -⟩ | ⟨_, _, -, -, h⟩ <;> simp [h]
@[simp] theorem expire_slot (s : State) : (expire s).slot = s.slot := by
  rcases expire_cases s with ⟨h, -⟩ | ⟨_, _, -, -, h⟩ <;> simp [h]
@[simp] theorem expire_rdT0 (s : State) : (expire s).rdT0 = s.rdT0 := by
  rcases expire_cases s with ⟨h, -⟩ | ⟨_, _, -, -, h⟩ <;> simp [h]
@[simp] theorem expire_rdTmo (s : State) : (expire s).rdTmo = s.rdTmo := by
  rcases expire_cases s with ⟨h, -⟩ | ⟨_, _, -, -, h⟩ <;> simp [h]
@[simp] theorem expire_tau (s : State) : (expire s).tau = s.tau := by
  rcases expire_cases s with ⟨h, -⟩ | ⟨_, _, -, -, h⟩ <;> simp [h]
@[simp] theorem expire_input (s : State) : (expire s).input = s.input := by
  rcases expire_cases s with ⟨h, -⟩ | ⟨_, _, -, -, h⟩ <;> simp [h]
@[simp] theorem expire_draws (s : State) : (expire s).draws = s.draws := by
  rcases expire_cases s with ⟨h, -⟩ | ⟨_, _, -, -, h⟩ <;> simp [h]

@[simp] theorem resolve_cfg (s : State) : (resolve s).cfg = s.cfg := by
  rcases resolve_cases s with ⟨h, -⟩ | ⟨-, -, h⟩ | ⟨_, _, -, -, -, h⟩ <;> simp [h]
@[simp] theorem resolve_running (s : State) : (resolve s).running = s.running := by
  rcases resolve_cases s with ⟨h, -⟩ | ⟨-, -, h⟩ | ⟨_, _, -, -, -, h⟩ <;> simp [h]
@[simp] theorem resolve_synced (s : State) : (resolve s).synced = s.synced := by
  rcases resolve_cases s with ⟨h, -⟩ | ⟨-, -, h⟩ | ⟨_, _, -, -, -, h⟩ <;> simp [h]
@[simp] theorem resolve_acc (s : State) : (resolve s).acc = s.acc := by
  rcases resolve_cases s with ⟨h, -⟩ | ⟨-, -, h⟩ | ⟨_, _, -, -, -, h⟩ <;> simp [h]
@[simp] theorem resolve_idx (s : State) : (resolve s).idx = s.idx := by
  rcases resolve_cases s with ⟨h, -⟩ | ⟨-, -, h⟩ | ⟨_, _, -, -, -, h⟩ <;> simp [h]
@[simp] theorem resolve_lastEdgeTime (s : State) : (resolve s).lastEdgeTime = s.lastEdgeTime := by
  rcases resolve_cases s with ⟨h, -⟩ | ⟨-, -, h⟩ | ⟨_, _, -, -, -, h⟩ <;> simp [h]
@[simp] theorem resolve_rdT0 (s : State) : (resolve s).rdT0 = s.rdT0 := by
  rcases resolve_cases s with ⟨h, -⟩ | ⟨-, -, h⟩ | ⟨_, _, -, -, -, h⟩ <;> simp [h]
@[simp] theorem resolve_rdTmo (s : State) : (resolve s).rdTmo = s.rdTmo := by
  rcases resolve_cases s with ⟨h, -⟩ | ⟨-, -, h⟩ | ⟨_, _, -, -, -, h⟩ <;> simp [h]
@[simp] theorem resolve_tau (s : State) : (resolve s).tau = s.tau := by
  rcases resolve_cases s with ⟨h, -⟩ | ⟨-, -, h⟩ | ⟨_, _, -, -, -, h⟩ <;> simp [h]
@[simp] theorem resolve_input (s : State) : (resolve s).input = s.input := by
  rcases resolve_cases s with ⟨h, -⟩ | ⟨-, -, h⟩ | ⟨_, _, -, -, -, h⟩ <;> simp [h]
@[simp] theorem resolve_draws (s : State) : (resolve s).draws = s.draws := by
  rcases resolve_cases s with ⟨h, -⟩ | ⟨-, -, h⟩ | ⟨_, _, -, -, -, h⟩ <;> simp [h]

/-- A slot that `resolve` changes is emptied. -/
theorem resolve_slot (s : State) : (resolve s).slot = s.slot ∨ (resolve s).slot = 0 := by
  rcases resolve_cases s with ⟨h, -⟩ | ⟨-, -, h⟩ | ⟨_, _, -, -, -, h⟩ <;> simp [h]

/-! ### The phases read and write `slot`, `rd` and `out` alone, so they commute with the other writes -/

/-- A state that agrees with `s` in what `expire` reads and writes expires as `s` does. -/
theorem expire_congr (s u : State) (hrd : u.rd = s.rd) (htau : u.tau = s.tau) (hout : u.out = s.out) :
    expire u = { u with rd := (expire s).rd, out := (expire s).out } := by
  unfold expire
  rw [hrd, htau]
  rcases h : s.rd with _ | _ | ⟨t0, tmo⟩ <;> simp only
  · ext <;> simp_all
  · ext <;> simp_all
  · split <;> ext <;> simp_all

theorem expire_setSeq (s : State) (b : Bool) (a k : Nat) :
    expire (s.setSeq b a k) = (expire s).setSeq b a k := by
  rw [expire_congr s (s.setSeq b a k) rfl rfl rfl]
  ext <;> simp

theorem expire_setRunning (s : State) (b : Bool) : expire (s.setRunning b) = (expire s).setRunning b := by
  rw [expire_congr s (s.setRunning b) rfl rfl rfl]
  ext <;> simp

theorem expire_markEdge (s : State) : expire s.markEdge = (expire s).markEdge := by
  rw [expire_congr s s.markEdge rfl rfl rfl]
  ext <;> simp [State.now]

/-- `expire` does not read the slot either. -/
theorem expire_memWrite (s : State) (v : Nat) : expire (memWrite s v) = memWrite (expire s) v := by
  rw [expire_congr s (memWrite s v) rfl rfl rfl]
  ext <;> simp

/-- A state that agrees with `s` in what `resolve` reads and writes is resolved as `s` is. -/
theorem resolve_congr (s u : State) (hslot : u.slot = s.slot) (hrd : u.rd = s.rd) (htau : u.tau = s.tau)
    (hout : u.out = s.out) :
    resolve u = { u with slot := (resolve s).slot, rd := (resolve s).rd, out := (resolve s).out } := by
  unfold resolve memRead
  rw [hrd, hslot, htau]
  rcases h : s.rd with _ | _ | ⟨t0, tmo⟩ <;> simp only
  · ext <;> simp_all
  · split <;> ext <;> simp_all
  · split
    · ext <;> simp_all
    · split <;> ext <;> simp_all

theorem resolve_setSeq (s : State) (b : Bool) (a k : Nat) :
    resolve (s.setSeq b a k) = (resolve s).setSeq b a k := by
  rw [resolve_congr s (s.setSeq b a k) rfl rfl rfl rfl]
  ext <;> simp

theorem resolve_setRunning (s : State) (b : Bool) : resolve (s.setRunning b) = (resolve s).setRunning b := by
  rw [resolve_congr s (s.setRunning b) rfl rfl rfl rfl]
  ext <;> simp

theorem resolve_markEdge (s : State) : resolve s.markEdge = (resolve s).markEdge := by
  rw [resolve_congr s s.markEdge rfl rfl rfl rfl]
  ext <;> simp [State.now]

/-! ### Events -/

/-- An event that answers a next state ran its rule between the two phases. -/
theorem event_next {rule : State → Result} {s t : State} (h : event rule s = .next t) :
    ∃ u, rule (expire s) = .next u ∧ t = resolve u := by
  unfold event at h
  split at h
  · next u hu => exact ⟨u, hu, by cases h; rfl⟩
  · cases h
  · cases h

@[simp] theorem plainEvent_eq (rule : State → State) (s : State) :
    plainEvent rule s = .next (resolve (rule (expire s))) := rfl

/-- The handler runs its rule on the marked state, or the edge is not delivered. -/
theorem deliverEdge_cases (rule : State → State) (s : State) :
    (s.running = true ∧ deliverEdge rule s = rule s.markEdge) ∨ (s.running = false ∧ deliverEdge rule s = s) := by
  unfold deliverEdge
  cases s.running <;> simp

/-- A bit is dropped while hunting, completes the word, or is shifted in. -/
theorem bitRule_cases (b : Bool) (s : State) :
    (s.synced = false ∧ bitRule b s = s) ∨
      (s.synced = true ∧ s.idx + 1 = s.cfg.n ∧ bitRule b s = publishRule (shiftIn s.cfg s.acc b) s) ∨
      (s.synced = true ∧ s.idx + 1 ≠ s.cfg.n ∧
        bitRule b s = s.setSeq true (shiftIn s.cfg s.acc b) (s.idx + 1)) := by
  unfold bitRule
  cases hs : s.synced
  · simp
  · by_cases hk : s.idx + 1 = s.cfg.n <;> simp [hk]

/-- The four rules of an edge's class. -/
theorem classRule_cases (c : IntervalClass) (s : State) :
    (c = .sync ∧ classRule c s = syncRule s) ∨ (c = .bit0 ∧ classRule c s = bitRule false s) ∨
      (c = .bit1 ∧ classRule c s = bitRule true s) ∨ (c = .glitch ∧ classRule c s = hunt s) := by
  cases c <;> simp [classRule, glitchRule]

/-- A read is issued, ignored beside a pending one, or misuse. -/
theorem issueRead_cases (r : PendingRead) (s : State) :
    (s.running = true ∧ s.rd = .none ∧ issueRead r s = .next ((s.loadReadRegs r).setRd r)) ∨
      (s.running = true ∧ s.rd ≠ .none ∧ issueRead r s = .next s) ∨
      (s.running = false ∧ issueRead r s = .refused .misuse) := by
  unfold issueRead raise
  cases s.running
  · simp
  · by_cases h : s.rd = .none <;> simp [h]

/-- STOP uninstalls the callback, and completes a pending timed read. -/
theorem stopRule_cases (s : State) :
    ((∀ t0 tmo, s.rd ≠ .timed t0 tmo) ∧ stopRule s = .next (s.setRunning false)) ∨
      ∃ t0 tmo, s.rd = .timed t0 tmo ∧ stopRule s = .next (finishRead (s.setRunning false) s.tau .noData) := by
  unfold stopRule raise
  cases h : s.rd <;> simp

/-- Every event but a misused read answers a next state. -/
theorem exec_completes (i : Instr) (s : State) (h : s.running = true) : ∃ t, exec i s = .next t := by
  cases i with
  | stop =>
    rcases stopRule_cases (expire s) with ⟨-, h'⟩ | ⟨_, _, -, h'⟩ <;> simp [exec, execStop, event, h']
  | read =>
    rcases issueRead_cases .untimed (expire s) with ⟨-, -, h'⟩ | ⟨-, -, h'⟩ | ⟨h', -⟩ <;>
      simp_all [exec, execRead, event]
  | readT tmo =>
    rcases issueRead_cases (.timed s.tau tmo) (expire s) with ⟨-, -, h'⟩ | ⟨-, -, h'⟩ | ⟨h', -⟩ <;>
      simp_all [exec, execReadT, event]
  | _ => exact ⟨_, rfl⟩

end Sys2Proof.Machine
end

