-- ==== Sys2Proof/Laws/Decode.lean ====
section
/-! SUPPORT. What the classifier and the decoder can answer, said once. -/

namespace Sys2Proof

theorem inWindow_iff (lo hi dt : Nat) : inWindow lo hi dt = true ↔ lo ≤ dt ∧ dt ≤ hi := by
  simp [inWindow]

/-- The class found is the first window, in the order of the tests, that holds the interval (spec/30_encoding.md R72). -/
theorem classify_cases (P : Config) (dt : Nat) :
    (classify P dt = .sync ∧ inWindow P.syncMin P.syncMax dt = true) ∨
      (classify P dt = .bit0 ∧ inWindow P.b0Min P.b0Max dt = true ∧ inWindow P.syncMin P.syncMax dt = false) ∨
      (classify P dt = .bit1 ∧ inWindow P.b1Min P.b1Max dt = true ∧ inWindow P.b0Min P.b0Max dt = false ∧
        inWindow P.syncMin P.syncMax dt = false) ∨
      (classify P dt = .glitch ∧ inWindow P.b1Min P.b1Max dt = false ∧ inWindow P.b0Min P.b0Max dt = false ∧
        inWindow P.syncMin P.syncMax dt = false) := by
  unfold classify
  cases inWindow P.syncMin P.syncMax dt <;> cases inWindow P.b0Min P.b0Max dt <;>
    cases inWindow P.b1Min P.b1Max dt <;> simp

/-- The constraints on the windows (spec/30_encoding.md R73) as inequalities. -/
theorem Config.windows_of_wf {P : Config} (h : P.wf = true) :
    P.b0Min ≤ P.b0Max ∧ P.b1Min ≤ P.b1Max ∧ P.syncMin ≤ P.syncMax ∧ P.syncMax ≤ 2 ^ P.tw - 1 ∧
      (P.b0Max < P.b1Min ∨ P.b1Max < P.b0Min) ∧ P.b0Max < P.syncMin ∧ P.b1Max < P.syncMin := by
  simp only [Config.wf, Config.windowsWf, windowsApart, Bool.and_eq_true, Bool.or_eq_true,
    decide_eq_true_eq] at h
  obtain ⟨⟨-, ⟨⟨⟨⟨⟨h1, h2⟩, h3⟩, h4⟩, h5⟩, h6⟩, h7⟩, -⟩ := h
  exact ⟨h1, h2, h3, h4, h5, h6, h7⟩

theorem Config.width_of_wf {P : Config} (h : P.wf = true) : 13 ≤ P.n ∧ 1 ≤ P.tw := by
  simp only [Config.wf, Bool.and_eq_true, decide_eq_true_eq] at h
  exact ⟨h.1.1.1, h.1.1.2⟩

/-- What an interval record can be. -/
theorem decodeInterval_ok {P : Config} {q : Seq} {dt : Nat} {i : Instr} (h : decodeInterval P q dt = .ok i) :
    dt < 2 ^ P.tw ∧
      ((classify P dt = .sync ∧ i = .sync dt) ∨ (classify P dt = .bit0 ∧ i = decodeBit P q false dt) ∨
        (classify P dt = .bit1 ∧ i = decodeBit P q true dt) ∨ (classify P dt = .glitch ∧ i = .glitch dt)) := by
  unfold decodeInterval at h
  split at h
  · next hlt =>
    refine ⟨hlt, ?_⟩
    cases hc : classify P dt <;> simp [hc] at h <;> simp [h]
  · cases h

/-- What a packet record can be: the parse function of the first kind whose marker the word carries. -/
theorem decodePacket_ok {P : Config} {w : Nat} {i : Instr} (h : decodePacket P w = .ok i) :
    w < 2 ^ P.n ∧ ∃ k, kinds.find? (fun k => (P.layout.marker k).matches w) = some k ∧ i = parseInstr k w := by
  unfold decodePacket at h
  split at h
  · next hlt =>
    refine ⟨hlt, ?_⟩
    split at h
    · next k hk => exact ⟨k, hk, by cases h; rfl⟩
    · cases h
  · cases h

end Sys2Proof
end

