-- ==== Sys2Proof/Laws/PerInstr.lean ====
section
/-! SUPPORT. A statement about every operation as syntax, one lemma per constructor: the encoding of a well-formed operation
fits the width of its format. -/

namespace Sys2Proof.Laws.EncodingFits

/-- A well-formed operation's record is no wider than its format (spec/30_encoding.md R70, R86, R88). -/
def Statement (i : Instr) : Prop :=
  ∀ P : Config, P.wf = true → i.wf P = true → (encode i).bits < 2 ^ ((encode i).format.width P)

theorem small_command {P : Config} (k : Nat) (h : k < 8) : k < 2 ^ (3 + P.tw) :=
  lt_of_lt_of_le h (by rw [Nat.pow_add]; exact Nat.le_mul_of_pos_right _ (Nat.two_pow_pos _))

theorem call_fits (n k w : Nat) (hk : k < 8) (hw : w < 2 ^ n) : k + 8 * w < 2 ^ (3 + n) := by
  rw [Nat.pow_add]
  omega

theorem interval_lt {P : Config} {dt : Nat} (hP : P.wf = true)
    (h : dt ≤ P.syncMax ∨ dt ≤ P.b0Max ∨ dt ≤ P.b1Max) : dt < 2 ^ P.tw := by
  have hw := Config.windows_of_wf hP
  have hp := Nat.two_pow_pos P.tw
  omega

theorem nop : Statement .nop := fun _ _ _ => small_command 0 (by decide)
theorem start : Statement .start := fun _ _ _ => small_command 1 (by decide)
theorem stop : Statement .stop := fun _ _ _ => small_command 2 (by decide)
theorem clear : Statement .clear := fun _ _ _ => small_command 3 (by decide)
theorem read : Statement .read := fun _ _ _ => small_command 4 (by decide)
theorem readT (tmo : Nat) : Statement (.readT tmo) := fun P _ h =>
  call_fits P.tw 5 tmo (by decide) (by simpa [Instr.wf] using h)
theorem reserved6 : Statement .reserved6 := fun _ _ _ => small_command 6 (by decide)
theorem reserved7 : Statement .reserved7 := fun _ _ _ => small_command 7 (by decide)
theorem tick : Statement .tick := fun _ _ _ => (by decide : 0 < 2 ^ 3)
theorem edge (level : Bool) : Statement (.edge level) := fun _ _ _ => by
  cases level
  · exact (by decide : 2 < 2 ^ 3)
  · exact (by decide : 6 < 2 ^ 3)
theorem sync (dt : Nat) : Statement (.sync dt) := fun P hP h =>
  interval_lt hP (by simp only [Instr.wf, inWindow_iff] at h; exact .inl h.2)
theorem bit0 (dt : Nat) : Statement (.bit0 dt) := fun P hP h =>
  interval_lt hP (by simp only [Instr.wf, inWindow_iff] at h; exact .inr (.inl h.2))
theorem bit1 (dt : Nat) : Statement (.bit1 dt) := fun P hP h =>
  interval_lt hP (by simp only [Instr.wf, inWindow_iff] at h; exact .inr (.inr h.2))
theorem glitch (dt : Nat) : Statement (.glitch dt) := fun P _ h => by
  simp only [Instr.wf, isGlitchInterval, Bool.and_eq_true, decide_eq_true_eq] at h
  exact h.1.1.1
theorem publish (a : Nat) (dt : Nat) : Statement (.publish a dt) := fun P hP h =>
  interval_lt hP (by
    simp only [Instr.wf, Bool.and_eq_true] at h
    by_cases ha : a % 2 = 0
    · simp only [ha, if_true, inWindow_iff] at h; exact .inr (.inl h.2.2)
    · simp only [ha, if_false, inWindow_iff] at h; exact .inr (.inr h.2.2))
theorem parseProg (w : Nat) : Statement (.parseProg w) := fun P _ h => by
  simpa [encode, Format.width] using call_fits P.n 0 w (by decide) (by simpa [Instr.wf] using h)
theorem parseCtrl (w : Nat) : Statement (.parseCtrl w) := fun P _ h =>
  call_fits P.n 1 w (by decide) (by simpa [Instr.wf] using h)
theorem parsePace (w : Nat) : Statement (.parsePace w) := fun P _ h =>
  call_fits P.n 2 w (by decide) (by simpa [Instr.wf] using h)
theorem parseAct (w : Nat) : Statement (.parseAct w) := fun P _ h =>
  call_fits P.n 3 w (by decide) (by simpa [Instr.wf] using h)
theorem parseAck (w : Nat) : Statement (.parseAck w) := fun P _ h =>
  call_fits P.n 4 w (by decide) (by simpa [Instr.wf] using h)
theorem reset : Statement .reset := fun _ _ _ => (by decide : 1 < 2 ^ 3)

end Sys2Proof.Laws.EncodingFits
end

