-- ==== Sys2Proof/Laws/Run.lean ====
section
/-! SUPPORT. What one step can do, said once, and the unrolling of a run. -/

namespace Sys2Proof.Machine

/-- A step that answers a next state ran the decoded operation on the state that took the next stimulus, or reported the
five failures of a packet that is of no kind. -/
theorem step_cases {s t : State} (h : step s = .next t) :
    s.cfg.wf = true ∧ s.tau ≤ stimulusTime s (nextStimulus s) ∧
      ((∃ i, decode s.cfg s.seq (nextStimulus s).record = .ok i ∧
          exec i (consume s (nextStimulus s)) = .next t) ∨
        ∃ w, decode s.cfg s.seq (nextStimulus s).record = .error (.noKind w) ∧
          t = { consume s (nextStimulus s) with
            out := s.out ++ kinds.map (fun k => .parsed (parseOf s.cfg k w)) }) := by
  simp only [step] at h
  split at h
  · next hw =>
    split at h
    · cases h
    · next ht =>
      refine ⟨hw, Nat.le_of_not_lt ht, ?_⟩
      split at h
      · next i hi => exact .inl ⟨i, hi, h⟩
      · next e he =>
        cases e <;> simp only [undecoded] at h <;> cases h
        exact .inr ⟨_, he, rfl⟩
  · cases h

theorem run_zero (s : State) : Host.Core.run Sys2Proof.core 0 s = .next s := rfl

/-- A run whose first step answers a next state goes on from there. -/
theorem run_of_next {k : Nat} {s t : State} (h : step s = .next t) :
    Host.Core.run Sys2Proof.core (k + 1) s = Host.Core.run Sys2Proof.core k t := by
  have hs : Sys2Proof.core.step s = .next t := h
  have hr := Host.Core.run.eq_2 Sys2Proof.core s k
  rw [hs] at hr
  exact hr

/-- A run whose first step is refused is refused. -/
theorem run_of_refused {k : Nat} {s : State} {r : Refusal} (h : step s = .refused r) :
    Host.Core.run Sys2Proof.core (k + 1) s = .refused r := by
  have hs : Sys2Proof.core.step s = .refused r := h
  have hr := Host.Core.run.eq_2 Sys2Proof.core s k
  rw [hs] at hr
  exact hr

/-- A run that answers a next state took its first step to one. -/
theorem run_succ_next {k : Nat} {s u : State} (h : Host.Core.run Sys2Proof.core (k + 1) s = .next u) :
    ∃ t, step s = .next t ∧ Host.Core.run Sys2Proof.core k t = .next u := by
  cases hs : step s with
  | next t => exact ⟨t, rfl, (run_of_next hs).symm.trans h⟩
  | fault r => cases r
  | refused r => cases (run_of_refused hs).symm.trans h

end Sys2Proof.Machine
end

