-- ==== Sys2Proof/Tests/Slice0.lean ====
section
/-! SUPPORT. The model's own tests. The expected values are those of spec/95_test_vectors.md (named by row) or written out by
hand from the rule cited. Then, for every obligation with hypotheses, a witness: a concrete state and operands that
meet them. -/

open Sys2Proof Sys2Proof.Machine Sys2Proof.Claims

namespace Sys2Proof.Tests

/-! ### Helpers -/

/-- The next state of a result, if there is one. -/
def next? : Result → Option State
  | .next s => some s
  | .fault _ => none
  | .refused _ => none

/-- Why a result is refused, if it is. -/
def refusal? : Result → Option Refusal
  | .next _ => none
  | .fault _ => none
  | .refused r => some r

/-- The registers `rd_t0` and `rd_tmo` of a pending timed read (spec/10_state.md R27), else 0. -/
def readRegs (P : Config) : PendingRead → Nat × Nat
  | .timed t0 tmo => (t0 % 2 ^ P.tw, tmo)
  | .none => (0, 0)
  | .untimed => (0, 0)

/-- A state tuple in the order of spec/95_test_vectors.md, at a time, in a configuration, with nothing to present. -/
def stIn (P : Config) (running synced : Bool) (idx acc last slot : Nat) (rd : PendingRead) (tau : Nat) : State :=
  { State.resetOf P last with running := running, synced := synced, idx := idx, acc := acc, slot := slot, rd := rd,
                              rdT0 := (readRegs P rd).1, rdTmo := (readRegs P rd).2, tau := tau }

@[inherit_doc stIn]
def st : Bool → Bool → Nat → Nat → Nat → Nat → PendingRead → Nat → State := stIn REF

/-- The columns `(synced, idx, acc, slot, rd)` and the emissions. -/
structure Columns where
  synced : Bool
  idx    : Nat
  acc    : Nat
  slot   : Nat
  rd     : PendingRead
  out    : List Output
deriving DecidableEq, Repr

/-- What an operation leaves, in those columns. -/
def leaves (i : Instr) (s : State) : Option Columns :=
  (next? (exec i s)).map (fun t => ⟨t.synced, t.idx, t.acc, t.slot, t.rd, t.out⟩)

/-- The second configuration of spec/95_test_vectors.md section 2.7. It gives the Programming layout only; the other four
kinds are filled in here so that R77 holds. -/
def ALT : Config where
  n := 13
  tw := 16
  b0Min := 100
  b0Max := 130
  b1Min := 40
  b1Max := 60
  syncMin := 300
  syncMax := 500
  layout :=
    { prog := { marker := ⟨0x1000, 0x1000⟩, command := 0, value := 5, address := 9 }
      ctrl := { marker := ⟨0x1E00, 0x0200⟩, address := 6, laneChange := 5, throttle := 1, fuelMode := 0 }
      pace := { marker := ⟨0x1E00, 0x0400⟩, stopped := 3, returnToPit := 2, active := 1, fuelMode := 0 }
      act := { marker := ⟨0x1E00, 0x0600⟩, controllerMask := 1, anyActive := 0 }
      ack := { marker := ⟨0x1E00, 0x0800⟩, slotMask := 0 } }
  inverted := true
  pin := 3
  pinMode := some 1

/-! ### Well-formedness: each check refuses an ill-formed term (R8, R9, R73, R77) -/

theorem test_wf_accepts_ref : REF.wf = true := by decide
theorem test_wf_accepts_alt : ALT.wf = true := by decide
theorem test_wf_refuses_narrow_word : Config.wf { ALT with n := 12 } = false := by decide
theorem test_wf_refuses_no_counter :
    Config.wf { REF with tw := 0, syncMin := 0, syncMax := 0 } = false := by decide
theorem test_wf_refuses_reversed_windows :
    Config.wf { REF with b0Min := 121 } = false ∧ Config.wf { REF with b1Max := 179 } = false ∧
      Config.wf { ALT with syncMax := 299 } = false := by decide
theorem test_wf_refuses_wide_sync : Config.wf { REF with syncMax := 4294967296 } = false := by decide
theorem test_wf_refuses_overlapping_windows :
    Config.wf { REF with b1Min := 120 } = false ∧ Config.wf { REF with b1Min := 121 } = true := by decide
theorem test_wf_refuses_sync_not_longer :
    Config.wf { REF with syncMin := 220 } = false ∧ Config.wf { ALT with syncMin := 130 } = false := by decide

/-- `REF` with another layout of Acknowledge. -/
def withAck (mask pattern shift : Nat) : Config :=
  { REF with layout := { refLayout with ack := { marker := ⟨mask, pattern⟩, slotMask := shift } } }

theorem test_wf_refuses_empty_marker : (withAck 0 0 0).wf = false := by decide
theorem test_wf_refuses_zero_pattern : (withAck 0xF000 0 0).wf = false := by decide
theorem test_wf_refuses_pattern_outside_mask : (withAck 0xF000 0x5100 0).wf = false := by decide
theorem test_wf_refuses_marker_outside_word : (withAck 0x1F000 0x15000 0).wf = false := by decide
theorem test_wf_refuses_field_outside_word : (withAck 0x000F 0x0005 9).wf = false := by decide
theorem test_wf_refuses_field_over_marker :
    (withAck 0xF000 0x5000 5).wf = false ∧ (withAck 0xF000 0x5000 4).wf = true := by decide
theorem test_wf_refuses_overlapping_fields :
    Config.wf { REF with layout := { refLayout with prog := { refLayout.prog with value := 2 } } } = false := by
  decide

theorem test_wf_instr_operands :
    (Instr.readT 4294967296).wf REF = false ∧ (Instr.readT 4294967295).wf REF = true ∧
      (Instr.sync 999).wf REF = false ∧ (Instr.bit0 79).wf REF = false ∧ (Instr.bit1 221).wf REF = false ∧
      (Instr.glitch 1000).wf REF = false ∧ (Instr.glitch 4294967296).wf REF = false ∧
      (Instr.publish 0x182F 100).wf REF = false ∧ (Instr.publish 0x10001 200).wf REF = false ∧
      (Instr.parseProg 0x10000).wf REF = false ∧ (Instr.parseCtrl 0x10000).wf REF = false ∧
      (Instr.parsePace 0x10000).wf REF = false ∧ (Instr.parseAct 0x10000).wf REF = false ∧
      (Instr.parseAck 0x10000).wf REF = false := by decide

/-- A bit in the place of PUBLISH, PUBLISH in the place of a bit, and PUBLISH of another word than the one assembled. -/
theorem test_wf_in_context :
    (Instr.bit1 200).wfIn REF ⟨true, 15, 0x0C17⟩ = false ∧ (Instr.publish 0x182F 200).wfIn REF ⟨true, 14, 0x0C17⟩ = false ∧
      (Instr.publish 0x182D 200).wfIn REF ⟨true, 15, 0x0C17⟩ = false ∧
      (Instr.publish 0x182F 200).wfIn REF ⟨true, 15, 0x0C17⟩ = true := by decide

/-! ### Decoding: words written out from the encodings -/

/-- The table of R86, `cmd_arg` above the three bits of `cmd`. -/
theorem test_decode_commands :
    [0b000, 0b001, 0b010, 0b011, 0b100, 0b110, 0b111].map (fun w => decodeTableWord 8 w) =
      [some .nop, some .start, some .stop, some .clear, some .read, some .reserved6, some .reserved7] := by decide

theorem test_decode_readT : (decode REF .hunting ⟨.command, 0b111110100101⟩).toOption = some (.readT 500) := by decide

/-- `cmd_arg` is ignored but for READ_T (R86), and a record wider than its 35 bits stands on no port. -/
theorem test_decode_argument_ignored :
    (decode REF .hunting ⟨.command, 0b111110100001⟩).toOption = some .start ∧
      (decode REF .hunting ⟨.command, 34359738368⟩).toOption = none := by decide

/-- `rst`, `edge_valid`, `edge_level` from bit 0 up (R213, R91); reset wins. -/
theorem test_decode_events :
    [0b000, 0b001, 0b010, 0b110, 0b100, 0b111, 0b1000].map (fun w => (decode REF .hunting ⟨.event, w⟩).toOption) =
      [some .tick, some .reset, some (.edge false), some (.edge true), some .tick, some .reset, none] := by decide

/-- The table of section 2.1. -/
theorem test_classify_ref :
    [0, 79, 80, 100, 120, 121, 150, 179].map (classify REF) =
        [.glitch, .glitch, .bit0, .bit0, .bit0, .glitch, .glitch, .glitch] ∧
      [180, 200, 220, 221, 500, 999, 1000, 7500, 4294967295].map (classify REF) =
        [.bit1, .bit1, .bit1, .glitch, .glitch, .glitch, .sync, .sync, .sync] := by decide

/-- The values of section 2.7. -/
theorem test_classify_alt :
    [0, 39, 40, 50, 60, 61, 99, 100].map (classify ALT) =
        [.glitch, .glitch, .bit1, .bit1, .bit1, .glitch, .glitch, .bit0] ∧
      [115, 130, 131, 299, 300, 400, 500, 501, 65535].map (classify ALT) =
        [.bit0, .bit0, .glitch, .glitch, .sync, .sync, .sync, .glitch, .glitch] := by decide

/-- Interval records: hunting, and at the last bit of a word (the table's encoding of PUBLISH). -/
theorem test_decode_intervals :
    [2000, 100, 200, 150, 4294967296].map (fun dt => (decode REF .hunting ⟨.interval, dt⟩).toOption) =
        [some (.sync 2000), some (.bit0 100), some (.bit1 200), some (.glitch 150), none] ∧
      [200, 100, 1500, 999].map (fun dt => (decode REF ⟨true, 15, 0x0C17⟩ ⟨.interval, dt⟩).toOption) =
        [some (.publish 0x182F 200), some (.publish 0x182E 100), some (.sync 1500), some (.glitch 999)] := by decide

/-- The `REF` patterns of R83, letters in their places; `0x6123` is of no kind (section 2.6). -/
theorem test_decode_packets :
    [0b0001100000101111, 0b0010000110101011, 0b0011000000001111, 0b0100000001010101, 0b0101000010000001,
        0b0110000100100011].map (fun w => decodeTableWord 16 w) =
      [some (.parseProg 0x182F), some (.parseCtrl 0x21AB), some (.parsePace 0x300F), some (.parseAct 0x4055),
        some (.parseAck 0x5081), none] := by decide

/-- The number of the function in the low three bits, the word above. -/
theorem test_decode_calls :
    [0x6123 * 8 + 4, 0x6123 * 8, 0x6123 * 8 + 5, 0x10000 * 8].map (fun b => (decode REF .hunting ⟨.call, b⟩).toOption) =
      [some (.parseAck 0x6123), some (.parseProg 0x6123), none, none] := by decide

/-! ### Words and fields -/

/-- Section 1.1 and section 2.7: the one worked example, in both layouts. -/
theorem test_encode_programming :
    encodeProg REF ⟨16, 5, 7⟩ = 0x182F ∧ encodeProg ALT ⟨16, 5, 7⟩ = 0x1EB0 ∧
      parseProg ALT 0x1EB0 = some ⟨16, 5, 7⟩ ∧ parseProg ALT 0x0EB0 = none := by decide

/-- The table of section 2.6. -/
theorem test_parse_prog_table :
    [0x0000, 0x0FFF, 0x1000, 0x182F, 0x1FFF, 0x282F].map (parseProg REF) =
      [none, none, some ⟨0, 0, 0⟩, some ⟨16, 5, 7⟩, some ⟨31, 15, 7⟩, none] := by decide
theorem test_parse_ctrl_table :
    [0x2E00, 0x21AB, 0x2ABC, 0x2FFF, 0x0000].map (parseCtrl REF) =
      [some ⟨0, false, 0, false⟩, some ⟨6, true, 5, true⟩, some ⟨2, true, 14, false⟩, some ⟨7, true, 15, true⟩,
        none] := by decide
theorem test_parse_pace_table :
    [0x300F, 0x3FF5, 0x3000, 0x4055].map (parsePace REF) =
      [some ⟨true, true, true, true⟩, some ⟨false, true, false, true⟩, some ⟨false, false, false, false⟩, none] := by
  decide
theorem test_parse_act_table :
    [0x4055, 0x407E, 0x4001, 0x5081].map (parseAct REF) =
      [some ⟨42, true⟩, some ⟨63, false⟩, some ⟨0, true⟩, none] := by decide
theorem test_parse_ack_table :
    [0x5081, 0x5F00, 0x50FF, 0x5001, 0x6123].map (parseAck REF) =
      [some ⟨129⟩, some ⟨0⟩, some ⟨255⟩, some ⟨1⟩, none] := by decide

/-- The intervals of section 2.1, across the wrap of the counter. -/
theorem test_interval_arithmetic :
    subMod 32 0x834 0x7D0 = 100 ∧ subMod 32 0x32 0xFFFFFFCE = 100 ∧ subMod 32 0x64 0xFFFFFF00 = 356 ∧
      subMod 32 0x68 0xFFFFFFA0 = 200 ∧ subMod 32 0x1FA4 0x1FA4 = 0 := by decide

/-! ### One step of each operation: the rows of sections 2.2 to 2.4 -/

/-- K12, with no read pending and with an untimed one. -/
theorem test_nop : leaves .nop (st true true 4 0x000F 0 0 .untimed 9) = some ⟨true, 4, 0x000F, 0, .untimed, []⟩ := by
  decide
theorem test_reserved6 : leaves .reserved6 (st true true 4 0x000F 0 0x4055 .none 9) = some ⟨true, 4, 0x000F, 0x4055, .none, []⟩ := by
  decide
theorem test_reserved7 : leaves .reserved7 (st true true 4 0x000F 0 0x4055 .none 9) = some ⟨true, 4, 0x000F, 0x4055, .none, []⟩ := by
  decide

/-- D7v: at the deadline. -/
theorem test_tick_at_deadline :
    leaves .tick (st true false 0 0 0x1FA4 0 (.timed 8102 500) 8602) =
      some ⟨false, 0, 0, 0, .none, [.done 8602 .noData]⟩ := by decide
/-- K13, D8v: after it. -/
theorem test_tick_after_deadline :
    leaves .tick (st true false 0 0 0x1FA4 0 (.timed 8102 500) 8700) =
      some ⟨false, 0, 0, 0, .none, [.done 8602 .noData]⟩ := by decide

/-- K1, K3. -/
theorem test_start :
    next? (exec .start (st false false 0 0 77 0 .none 0)) = some (st true false 0 0 77 0 .none 0) ∧
      next? (exec .start (st false true 4 0x000F 0x0ED8 0 .none 5)) = some (st true true 4 0x000F 0x0ED8 0 .none 5) := by
  decide
/-- K2. -/
theorem test_start_idempotent :
    next? (exec .start (st true true 4 0x000F 0x0ED8 0x4055 .none 5)) =
      some (st true true 4 0x000F 0x0ED8 0x4055 .none 5) := by decide

/-- K4, K7. -/
theorem test_stop :
    next? (exec .stop (st true true 4 0x000F 0x0ED8 0x4055 .none 5)) =
        some (st false true 4 0x000F 0x0ED8 0x4055 .none 5) ∧
      next? (exec .stop (st true false 0 0 0x1FA4 0 .untimed 5)) = some (st false false 0 0 0x1FA4 0 .untimed 5) := by
  decide
/-- K6. -/
theorem test_stop_ends_timed_read :
    leaves .stop (st true false 0 0 0x1FA4 0 (.timed 8800 5000) 8900) =
      some ⟨false, 0, 0, 0, .none, [.done 8900 .noData]⟩ := by decide

/-- K8, K9, K10. -/
theorem test_clear :
    next? (exec .clear (st true true 3 0x0005 0x157C 0x4055 .none 5)) =
        some (st true false 0 0 0x157C 0x4055 .none 5) ∧
      next? (exec .clear (st false true 3 0x0005 0x157C 0 .none 5)) = some (st false false 0 0 0x157C 0 .none 5) := by
  decide

/-- D1v, D2v; and `rd_t0` holds `now` (R27). -/
theorem test_read :
    leaves .read (st true false 0 0 0 0x5081 .none 8101) =
        some ⟨false, 0, 0, 0, .none, [.done 8101 (.word 0x5081)]⟩ ∧
      leaves .read (st true false 0 0 0 0 .none 5) = some ⟨false, 0, 0, 0, .untimed, []⟩ ∧
      (next? (exec .read (st true false 0 0 0 0 .none 4294967301))).map State.rdT0 = some 5 := by decide
/-- D11v, D12v. -/
theorem test_read_ignored_or_refused :
    leaves .read (st true false 0 0 0 0 .untimed 5) = some ⟨false, 0, 0, 0, .untimed, []⟩ ∧
      refusal? (exec .read (st false false 0 0 0 0x5081 .none 5)) = some .misuse ∧
      refusal? (exec (.readT 1) (st false false 0 0 0 0 .none 5)) = some .misuse := by decide
/-- D4v, D5v: a poll. -/
theorem test_readT_polls :
    leaves (.readT 0) (st true false 0 0 0 0x300F .none 4300) =
        some ⟨false, 0, 0, 0, .none, [.done 4300 (.word 0x300F)]⟩ ∧
      leaves (.readT 0) (st true false 0 0 0 0 .none 9501) =
        some ⟨false, 0, 0, 0, .none, [.done 9501 .noData]⟩ := by decide
/-- D6v, D13v: the deadlines 8602 and 4294967395; and the registers of R27. -/
theorem test_readT_waits :
    leaves (.readT 500) (st true false 0 0 0 0 .none 8102) = some ⟨false, 0, 0, 0, .timed 8102 500, []⟩ ∧
      deadline 8102 500 = 8602 ∧
      leaves (.readT 4294967295) (st true false 0 0 0 0 .none 100) =
        some ⟨false, 0, 0, 0, .timed 100 4294967295, []⟩ ∧ deadline 100 4294967295 = 4294967395 ∧
      (next? (exec (.readT 500) (st true false 0 0 0 0 .none 4294967301))).map (fun t => (t.rdT0, t.rdTmo)) =
        some (5, 500) := by decide

/-- E1 to E7, E13 to E17, `last_edge_time` 5000; and the edge becomes the reference. -/
theorem test_edge_classes :
    next? (exec (.edge true) (st false true 4 0x000F 5000 0 .none 7000)) =
        some (st false true 4 0x000F 5000 0 .none 7000) ∧
      leaves (.edge true) (st true true 15 0x7FFF 5000 0 .none 6500) = some ⟨true, 0, 0, 0, .none, []⟩ ∧
      leaves (.edge false) (st true true 3 0x0005 5000 0 .none 5100) = some ⟨true, 4, 0x000A, 0, .none, []⟩ ∧
      leaves (.edge true) (st true true 3 0x0005 5000 0 .none 5200) = some ⟨true, 4, 0x000B, 0, .none, []⟩ ∧
      leaves (.edge true) (st true true 5 0x0005 5000 0x4055 .none 5999) = some ⟨false, 0, 0, 0x4055, .none, []⟩ ∧
      next? (exec (.edge false) (st true false 0 0 5000 0 .none 5200)) =
        some (st true false 0 0 5200 0 .none 5200) := by decide

/-- E8 to E12, E18, D9v, D10v. -/
theorem test_edge_publishes :
    leaves (.edge true) (st true true 15 0x0C17 5000 0x4055 .none 5200) = some ⟨false, 0, 0, 0x182F, .none, []⟩ ∧
      leaves (.edge true) (st true true 15 0x0C17 5000 0 .untimed 5200) =
        some ⟨false, 0, 0, 0, .none, [.done 5200 (.word 0x182F)]⟩ ∧
      leaves (.edge true) (st true true 15 0 5000 0x5001 .none 5100) = some ⟨false, 0, 0, 0, .none, []⟩ ∧
      leaves (.edge true) (st true true 15 0 5000 0 .untimed 5100) = some ⟨false, 0, 0, 0, .untimed, []⟩ ∧
      leaves (.edge true) (st true false 0 0 4901 0 (.timed 4000 1000) 5001) =
        some ⟨false, 0, 0, 0, .none, [.done 5000 .noData]⟩ ∧
      leaves (.edge true) (st true true 15 0x1807 4000 0 (.timed 4000 200) 4200) =
        some ⟨false, 0, 0, 0, .none, [.done 4200 (.word 0x300F)]⟩ ∧
      leaves (.edge true) (st true true 15 0x1807 4000 0 (.timed 4000 199) 4200) =
        some ⟨false, 0, 0, 0x300F, .none, [.done 4199 .noData]⟩ := by decide

/-- E3, E4. -/
theorem test_sync :
    leaves (.sync 1500) (st true true 15 0x7FFF 5000 0 .none 6500) = some ⟨true, 0, 0, 0, .none, []⟩ ∧
      leaves (.sync 1000) (st true true 0 0 5000 0x4055 .none 6000) = some ⟨true, 0, 0, 0x4055, .none, []⟩ := by decide
/-- E5, E15. -/
theorem test_bit0 :
    leaves (.bit0 100) (st true true 3 0x0005 5000 0 .none 5100) = some ⟨true, 4, 0x000A, 0, .none, []⟩ ∧
      leaves (.bit0 100) (st true false 0 0 5000 0 .none 5100) = some ⟨false, 0, 0, 0, .none, []⟩ := by decide
/-- E6, E7. -/
theorem test_bit1 :
    leaves (.bit1 200) (st true true 3 0x0005 5000 0 .none 5200) = some ⟨true, 4, 0x000B, 0, .none, []⟩ ∧
      leaves (.bit1 220) (st true true 0 0 5000 0 .none 5220) = some ⟨true, 1, 1, 0, .none, []⟩ := by decide
/-- E13, E14. -/
theorem test_glitch :
    leaves (.glitch 150) (st true true 5 0x0005 5000 0 .none 5150) = some ⟨false, 0, 0, 0, .none, []⟩ ∧
      leaves (.glitch 999) (st true true 5 0x0005 5000 0x4055 .none 5999) = some ⟨false, 0, 0, 0x4055, .none, []⟩ := by
  decide
/-- E8, E9, D3v. -/
theorem test_publish :
    leaves (.publish 0x182F 200) (st true true 15 0x0C17 5000 0x4055 .none 5200) =
        some ⟨false, 0, 0, 0x182F, .none, []⟩ ∧
      leaves (.publish 0x182F 200) (st true true 15 0x0C17 5000 0 .untimed 5200) =
        some ⟨false, 0, 0, 0, .none, [.done 5200 (.word 0x182F)]⟩ := by decide

/-- Section 2.7: the thirteenth bit publishes, and a gap of 65936 aliases to a SYNC. -/
theorem test_edge_in_alt :
    leaves (.edge true) (stIn ALT true true 12 0x0F58 0x032D 0 .none 66464) =
        some ⟨false, 0, 0, 0x1EB0, .none, []⟩ ∧
      leaves (.edge true) (stIn ALT true false 0 0 0x0595 0x1EB0 .none 132901) =
        some ⟨true, 0, 0, 0x1EB0, .none, []⟩ := by decide

/-- A parse call delivers its result and leaves the held word (R167). -/
theorem test_parse_calls :
    leaves (.parseProg 0x182F) (st true false 0 0 0 0x4055 .none 5) =
        some ⟨false, 0, 0, 0x4055, .none, [.parsed (.prog (some ⟨16, 5, 7⟩))]⟩ ∧
      leaves (.parseCtrl 0x21AB) (st true false 0 0 0 0x4055 .none 5) =
        some ⟨false, 0, 0, 0x4055, .none, [.parsed (.ctrl (some ⟨6, true, 5, true⟩))]⟩ ∧
      leaves (.parsePace 0x3FF5) (st false false 0 0 0 0 .none 5) =
        some ⟨false, 0, 0, 0, .none, [.parsed (.pace (some ⟨false, true, false, true⟩))]⟩ ∧
      leaves (.parseAct 0x407E) (st false false 0 0 0 0 .none 5) =
        some ⟨false, 0, 0, 0, .none, [.parsed (.act (some ⟨63, false⟩))]⟩ ∧
      leaves (.parseAck 0x6123) (st false false 0 0 0 0 .none 5) =
        some ⟨false, 0, 0, 0, .none, [.parsed (.ack none)]⟩ := by decide

/-- R200: a pending read is dropped without a result. -/
theorem test_reset :
    (leaves .reset (st true true 5 0x0005 5000 0 (.timed 4000 100) 5100)) = some ⟨false, 0, 0, 0, .none, []⟩ := rfl

/-- The word START placed where the next step fetches runs as the first operation after reset. -/
theorem test_step_runs_placed_word :
    (next? (step (State.reset.withFetchWord 8 0b001))).map State.running = some true ∧
      (next? (step (State.reset.withFetchWord 16 0x5081))).map State.out =
        some [.parsed (.ack (some ⟨129⟩))] := by decide

/-- Decode, then run: an interval record is an edge that many microseconds after the last (E8). -/
theorem test_step_runs_interval :
    (next? (step { st true true 15 0x0C17 5000 0 .none 5040 with input := [⟨5040, ⟨.interval, 200⟩⟩] })).map
        (fun t => (t.tau, t.slot, t.lastEdgeTime)) = some (5200, 0x182F, 5200) := by decide

/-- A cycle of the port-level rendering with an edge that completes a word and a READ: the edge first (R213). -/
theorem test_cycle_edge_before_read :
    (next? (cycle { rst := false, edgeValid := true, edgeLevel := false, tau := 5200, cmd := 4, cmdArg := 0, parseWord := 0 }
      (st true true 15 0x0C17 5000 0 .none 5199))).map (fun t => (t.slot, t.rd, t.out)) =
      some (0, .none, [.done 5200 (.word 0x182F)]) := by decide

/-! ### Witnesses: the hypotheses of each obligation are met by -/

/-- The invariant, as something to evaluate. -/
def invCheck (s : State) : Bool :=
  s.cfg.wf && decide (s.idx < s.cfg.n) && decide (s.acc < 2 ^ s.idx) && (s.synced || s.acc == 0 && s.idx == 0) &&
    (s.rd == .none || s.slot == 0) && decide (s.slot < 2 ^ s.cfg.n) && decide (s.lastEdgeTime < 2 ^ s.cfg.tw) &&
    decide (s.rdT0 < 2 ^ s.cfg.tw) && decide (s.rdTmo < 2 ^ s.cfg.tw) &&
    (match s.rd with
      | .timed t0 tmo => decide (s.rdT0 = counterAt s.cfg t0) && decide (s.rdTmo = tmo) && s.running
      | .none => true
      | .untimed => true)

theorem inv_of_check {s : State} (h : invCheck s = true) : s.Inv := by
  simp only [invCheck, Bool.and_eq_true, decide_eq_true_eq] at h
  obtain ⟨⟨⟨⟨⟨⟨⟨⟨⟨h1, h2⟩, h3⟩, h4⟩, h5⟩, h6⟩, h7⟩, h8⟩, h9⟩, h10⟩ := h
  have ht : ∀ t0 tmo, s.rd = .timed t0 tmo → (s.rdT0 = counterAt s.cfg t0 ∧ s.rdTmo = tmo) ∧ s.running = true := by
    intro t0 tmo hr
    simpa only [hr, Bool.and_eq_true, decide_eq_true_eq] using h10
  refine ⟨h1, h2, h3, ?_, ?_, h6, h7, ?_, h8, h9, fun t0 tmo hr => (ht t0 tmo hr).1, fun t0 tmo hr => (ht t0 tmo hr).2⟩
  · intro hs
    simpa [hs] using h4
  · intro hr
    simpa [hr] using h5
  · intro t0 tmo hr
    exact (ht t0 tmo hr).1.2 ▸ h9

/-- Fourteen edges in `ALT`, SYNC and the thirteen bits of `0x1EB0` (the times of section 2.7). -/
def frameTimes : List Nat :=
  [65474, 65524, 65574, 65624, 65739, 65789, 65904, 65954, 66004, 66119, 66234, 66349, 66464]
@[inherit_doc frameTimes]
def frameBits : List Bool :=
  [true, true, true, true, false, true, false, true, true, false, false, false, false]
@[inherit_doc frameTimes]
def frameState (rd : PendingRead) : State :=
  { stIn ALT true false 0 0 0xFE00 0 rd 65024 with input := edgesAt (65424 :: frameTimes) ++ [⟨70000, ⟨.command, 4⟩⟩] }

theorem witness_ResetMeetsTheInvariant :
    (REF.wf = true ∧ 4294967295 < 2 ^ REF.tw) ∧ (ALT.wf = true ∧ 65535 < 2 ^ ALT.tw) := by decide

theorem witness_StepRunsTheDecodedOperation :
    let s : State := { State.reset with input := [⟨0, ⟨.command, 1⟩⟩] }
    s.cfg.wf = true ∧ s.tau ≤ stimulusTime s (nextStimulus s) ∧
      decode s.cfg s.seq (nextStimulus s).record = .ok .start ∧ s.input = ⟨0, ⟨.command, 1⟩⟩ :: [] :=
  ⟨by decide, by decide, rfl, rfl⟩

theorem witness_StepRunsTheDecodedOperation_idle :
    State.reset.input = [] ∧ State.reset.tau ≤ stimulusTime State.reset (nextStimulus State.reset) ∧
      decode State.reset.cfg State.reset.seq (nextStimulus State.reset).record = .ok .nop :=
  ⟨rfl, by decide, rfl⟩

theorem witness_StepRefusesWhatTheEnvironmentMayNotDo :
    (State.resetOf { REF with n := 12 } 0).cfg.wf = false ∧
      ((Format.command ≠ .interval ∧ 4 < (st true false 0 0 0 0 .none 5).tau) ∧ refusal? (step { st true false 0 0 0 0 .none 5 with input := [⟨4, ⟨.command, 0⟩⟩] }) =
        some .timeReversed) ∧
      refusal? (step { st true false 0 0 0 0 .none 5 with input := [⟨5, ⟨.event, 8⟩⟩] }) =
        some (.undecodable .eventTooWide) := by decide

theorem witness_StepRefuses_undecodable :
    decode REF Seq.hunting ⟨.event, 8⟩ = .error .eventTooWide ∧ ∀ w, DecodeError.eventTooWide ≠ .noKind w :=
  ⟨rfl, fun _ h => nomatch h⟩

theorem witness_DecodeOfEncodeIsTheOperation :
    REF.wf = true ∧
      [Instr.readT 4294967295, .sync 1000, .sync 4294967295, .bit0 80, .bit0 120, .bit1 180, .bit1 220, .glitch 0,
        .glitch 999, .parseProg 65535, .parseAck 0, .edge true, .reset].all (fun i => i.wfIn REF .hunting) = true ∧
      [Instr.publish 0xFFFF 180, .publish 0xFFFE 120].all (fun i => i.wfIn REF ⟨true, 15, 0x7FFF⟩) = true := by decide

theorem witness_DecodedOperationsAreWellFormed :
    REF.wf = true ∧ decode REF ⟨true, 15, 0x0C17⟩ ⟨.interval, 220⟩ = .ok (.publish 0x182F 220) := ⟨by decide, rfl⟩

theorem witness_PacketWordIsParsedOrFailsEveryParse :
    let s (w : Nat) : State := { State.reset with input := [⟨0, ⟨.packet, w⟩⟩] }
    (s 0xFFFF).cfg.wf = true ∧ (s 0xFFFF).tau ≤ 0 ∧ 0xFFFF < 2 ^ (s 0xFFFF).cfg.n ∧
      (∀ k ∈ kinds, 0xFFFF &&& (REF.layout.marker k).mask ≠ (REF.layout.marker k).pattern) ∧
      0x5FFF &&& (REF.layout.marker .ack).mask = (REF.layout.marker .ack).pattern := by decide

/-- Both ends of each window, and their neighbours outside. -/
theorem witness_ClassifyIsDecidedByTheWindows :
    ALT.wf = true ∧ [300, 500, 100, 130, 40, 60].map (classify ALT) = [.sync, .sync, .bit0, .bit0, .bit1, .bit1] ∧
      [299, 501, 99, 131, 39, 61].all (fun dt => classify ALT dt == .glitch) = true := by decide

theorem witness_MeasuredIntervalIsTheTimeModuloThePeriod :
    (0xFFFFFFCE ≤ 0x100000032 ∧ 0x100000032 - 0xFFFFFFCE < 2 ^ REF.tw) ∧ 0 ≤ 4294967295 ∧ 4294967295 < 2 ^ REF.tw := by
  decide

theorem witness_StartSetsRunningAlone :
    (st true true 4 0x000F 0x0ED8 0x4055 .none 5).running = true ∧
      (st true true 4 0x000F 0x0ED8 0x4055 .none 5).rd = .none := by decide

theorem witness_StopClearsRunningAndEndsATimedRead :
    (st true false 0 0 0 0 (.timed 8800 5000) 8900).rd = .timed 8800 5000 ∧
      ∀ t0 tmo, (st true false 0 0 0 0 .untimed 5).rd ≠ .timed t0 tmo := ⟨rfl, fun _ _ h => nomatch h⟩

/-- READ with no read pending: with a word held and without one. The same states serve READ_T. -/
theorem witness_ReadTakesAHeldWordOrWaits_and_TimedReadTakesAWordPollsOrWaits :
    (st true false 0 0 0 0x5081 .none 8101).running = true ∧ (st true false 0 0 0 0x5081 .none 8101).rd = .none ∧
      (st true false 0 0 0 0x5081 .none 8101).slot ≠ 0 ∧ (st true false 0 0 0 0 .none 5).running = true ∧
      (st true false 0 0 0 0 .none 5).rd = .none ∧ (st true false 0 0 0 0 .none 5).slot = 0 := by decide

theorem witness_SecondReadIsIgnored :
    let s := st true false 0 0 0 0 (.timed 8102 500) 8602
    s.running = true ∧ s.rd ≠ .none ∧ ∀ t0 d, s.rd = .timed t0 d → s.tau ≤ t0 + d :=
  ⟨rfl, by decide, fun _ _ h => by cases h; decide⟩

theorem witness_ReadAfterAPassedDeadlineIsIssued :
    let s := st true false 0 0 0 0 (.timed 8102 500) 8603
    s.running = true ∧ s.rd = .timed 8102 500 ∧ 8102 + 500 < s.tau ∧ 8603 = s.tau % 2 ^ s.cfg.tw := by decide

theorem witness_ReadWhileStoppedIsRefused : State.reset.running = false := by decide

theorem witness_EdgeWhileStoppedIsNotDelivered :
    [Instr.edge true, .sync 1000, .bit0 80, .bit1 180, .glitch 0, .publish 1 180].all Instr.isEdge = true ∧
      (st false true 4 0x000F 5000 0 .none 7000).running = false ∧ (st false true 4 0x000F 5000 0 .none 7000).rd = .none := by
  decide

theorem witness_EdgeActsByTheClassOfItsInterval :
    let s := st true true 15 0x0C17 4294967295 0 .none 4294967495
    s.lastEdgeTime < 2 ^ s.cfg.tw ∧ s.running = true := by decide

/-- The block is running: the one hypothesis of SyncStartsANewWord, BitZeroShiftsInAZero, BitOneShiftsInAOne,
PublishOverwritesTheSlotAndHunts and GlitchDropsTheWordInProgress. The states are at the last bit, in mid-word and
hunting, the three cases of a bit. -/
theorem witness_class_operations :
    (st true true 15 0x0C17 5000 0x4055 .none 5200).running = true ∧
      (st true true 3 5 5000 0 .untimed 5200).running = true ∧ (st true false 0 0 5000 0 .none 5200).running = true := by
  decide

/-- Each row of the transition table. -/
theorem witness_EdgeFollowsTheTransitionTable :
    let sync := st true true 15 0x7FFF 5000 0 .none 6000
    let hunting := st true false 0 0 5000 0 .none 5999
    let bit := st true true 14 0x3FFF 5000 0 .none 5080
    let last := st true true 15 0x7FFF 5000 0x4055 .none 5220
    let glitch := st true true 15 0x7FFF 5000 0 .none 5221
    (sync.running = true ∧ sync.rd = .none ∧ invCheck sync = true ∧ classify REF (measured sync) = .sync) ∧
      (invCheck hunting = true ∧ hunting.synced = false ∧ classify REF (measured hunting) ≠ .sync) ∧
      (invCheck bit = true ∧ bit.synced = true ∧ bit.idx + 1 < REF.n ∧ classify REF (measured bit) = bitClass false) ∧
      (invCheck last = true ∧ last.synced = true ∧ last.idx + 1 = REF.n ∧ classify REF (measured last) = bitClass true) ∧
      (invCheck glitch = true ∧ glitch.synced = true ∧ classify REF (measured glitch) = .glitch) := by decide

/-- Outside EDGE, stopped and with a read pending. -/
theorem witness_EdgeFollowsTheTransitionTable_outside_edge :
    (next? (exec .clear (st false true 3 5 5000 0 .untimed 5100))).map State.synced = some false ∧
      (next? (exec .start (st false true 3 5 5000 0 .untimed 5100))).map State.idx = some 3 := by decide

theorem witness_WordAtTheDeadlineIsReturned :
    let s (rd : PendingRead) := st true true 15 0x1807 4000 0 rd 4200
    ((s .untimed).lastEdgeTime < 2 ^ REF.tw ∧ (s .untimed).running = true ∧ (s .untimed).synced = true ∧
        (s .untimed).idx + 1 = REF.n ∧ classify REF (measured (s .untimed)) = bitClass true ∧
        0x300F = (2 * 0x1807 + true.toNat) % 2 ^ REF.n) ∧
      (s (.timed 4000 200)).tau ≤ 4000 + 200 ∧ 4000 + 199 < (s (.timed 4000 199)).tau := by decide

theorem witness_IntervalRecordIsAnEdgeAtItsTime :
    let s : State := { st true true 15 0x0C17 5000 0 .none 5040 with input := [⟨5040, ⟨.interval, 4294967295⟩⟩] }
    s.cfg.wf = true ∧ s.lastEdgeTime < 2 ^ s.cfg.tw ∧ 4294967295 < 2 ^ s.cfg.tw := by decide

theorem witness_EdgeTimeIsTheFirstOfItsInterval :
    let s := st true false 0 0 4294967295 0 .none 4294967395
    s.lastEdgeTime < 2 ^ s.cfg.tw ∧ 4294967295 < 2 ^ s.cfg.tw ∧ edgeTime s 4294967395 100 = 4294967395 ∧
      edgeTime s 4294967396 100 = 8589934691 := by decide

theorem witness_EdgeConditionsAreSilentAndExclusive :
    edgeConditions (st true true 15 0x0C17 5000 0x4055 .none 5200) .bit1 = [.overrun] ∧
      edgeConditions (st true true 15 0x0C17 5000 0x4055 .none 5200) .sync = [.incompleteWordDiscarded] ∧
      edgeConditions (st true true 15 0 5000 0 .none 5100) .bit0 = [.zeroWord] ∧
      edgeConditions (st true true 15 0x0C17 5000 0x4055 .none 5200) .glitch = [.glitch] := by decide

theorem witness_WordZeroFailsEveryParse : REF.wf = true ∧ (parseOf REF .act 0x4000).success = true := by decide

theorem witness_ParseOfEncodeIsTheRecord : REF.wf = true ∧ ALT.wf = true := by decide

theorem witness_MarkersExcludeEachOtherInRefNotInGeneral :
    (parseOf REF .prog 0x1FFF).success = true ∧ (parseOf REF .ack 0x5FFF).success = true := by decide

theorem witness_OnlyTheNamedOperationsWriteEachField :
    (next? (exec .read (st true false 0 0 0 0x5081 .none 8101))).map State.slot = some 0 ∧
      (next? (exec .start State.reset)).map State.running = some true := by decide

theorem witness_DeliveredWordEmptiesTheSlot :
    (next? (exec .read (st true false 0 0 0 0x5081 .none 8101))).map State.out = some [.done 8101 (.word 0x5081)] ∧
      (next? (exec (.publish 0x182F 200) (st true true 15 0x0C17 5000 0 .untimed 5200))).map State.out =
        some [.done 5200 (.word 0x182F)] ∧
      (next? (exec (.bit0 100) (st true true 15 0x0C17 5000 0 .untimed 5100))).map State.out =
        some [.done 5100 (.word 0x182E)] ∧
      (next? (exec (.edge true) (st true true 15 0x0C17 5000 0 .untimed 5200))).map State.out =
        some [.done 5200 (.word 0x182F)] := by decide

theorem witness_UntimedReadEndsOnlyByAWord :
    let s := st true true 15 0x0C17 5000 0 .untimed 5200
    s.Inv ∧ s.rd = .untimed ∧ ∃ t, exec (.edge true) s = .next t ∧ t.rd ≠ .untimed :=
  ⟨inv_of_check (by decide), rfl, _, rfl, by decide⟩

theorem witness_StepKeepsTheInvariant :
    (frameState .untimed).Inv ∧ ∃ t, step (frameState .untimed) = .next t :=
  ⟨inv_of_check (by decide), _, rfl⟩

theorem witness_ReachableStatesMeetTheFourInvariants :
    Reachable { State.resetOf ALT 0xFE00 with tau := 65024, input := edgesAt (65424 :: frameTimes) } :=
  .reset ALT 0xFE00 65024 _ (by decide) (by decide)

theorem witness_StepKeepsConfigurationTimeAndOutputs : ∃ t, step State.reset = .next t ∧ t.tau = 1 := ⟨_, rfl, by decide⟩

theorem witness_InsertedTickChangesNothing :
    let s := st true false 0 0 0x1FA4 0 (.timed 8102 500) 8102
    s.Inv ∧ Instr.isParse .read = false ∧ Instr.read ≠ .reset ∧ 8602 < 8603 ∧
      ∃ u, exec .tick { s with tau := 8602 } = .next u ∧ u.rd = .none :=
  ⟨inv_of_check (by decide), rfl, by decide, by decide, _, rfl, by decide⟩

theorem frame_spells : Spells ALT (counterAt ALT 65424) frameTimes frameBits := by
  simp only [frameTimes, frameBits, Spells]
  decide

theorem frame_rising : Rising 65024 (65424 :: frameTimes) := by
  simp only [frameTimes, Rising]
  decide

theorem witness_SyncAndBitsPublishTheSpelledWord :
    let s := frameState .none
    s.Inv ∧ s.running = true ∧ s.rd = .none ∧ s.input = edgesAt (65424 :: frameTimes) ++ [⟨70000, ⟨.command, 4⟩⟩] ∧
      Rising s.tau (65424 :: frameTimes) ∧ classify s.cfg (subMod s.cfg.tw (counterAt s.cfg 65424) s.lastEdgeTime) = .sync ∧
      frameTimes.length = s.cfg.n ∧ Spells s.cfg (counterAt s.cfg 65424) frameTimes frameBits ∧
      wordFrom 0 frameBits = 0x1EB0 :=
  ⟨inv_of_check (by decide), rfl, rfl, rfl, frame_rising, by decide, by decide, frame_spells, by decide⟩

theorem witness_WaitingReaderGetsTheSpelledWord :
    ((frameState .untimed).Inv ∧ (frameState .untimed).running = true ∧ (frameState .untimed).rd = .untimed ∧
        Rising (frameState .untimed).tau (65424 :: frameTimes) ∧ frameTimes.getLast? = some 66464 ∧
        wordFrom 0 frameBits ≠ 0) ∧
      (frameState (.timed 65000 1465)).Inv ∧ (frameState (.timed 65000 1465)).rd = .timed 65000 1465 ∧
        66464 < 65000 + 1465 :=
  ⟨⟨inv_of_check (by decide), rfl, rfl, frame_rising, by decide, by decide⟩, inv_of_check (by decide), rfl, by decide⟩

theorem witness_GlitchedFrameNeverPublishes :
    let s : State := { stIn ALT true true 4 0x000F 0x0058 0x1EB0 .none 65624 with input := edgesAt (65685 :: [65735, 65850]) ++ [] }
    s.Inv ∧ s.running = true ∧ s.rd = .none ∧ Rising s.tau (65685 :: [65735, 65850]) ∧
      classify s.cfg (subMod s.cfg.tw (counterAt s.cfg 65685) s.lastEdgeTime) = .glitch ∧
      NoSync s.cfg (counterAt s.cfg 65685) [65735, 65850] := by
  refine ⟨inv_of_check (by decide), rfl, rfl, ?_, by decide, ?_⟩
  · simp only [Rising]
    decide
  · simp only [NoSync]
    decide

theorem witness_NoPublicationUntilTheNextStart :
    let s : State := { stIn ALT false true 12 0x0F58 0x032D 0x1EB0 .none 66464 with
      input := [⟨66464, encode (.edge true)⟩, ⟨66464, encode .clear⟩] }
    s.running = false ∧ (∀ x ∈ s.input, x.isStart = false) ∧
      ∃ t, Host.Core.run Sys2Proof.core 2 s = .next t ∧ t.slot = 0x1EB0 :=
  ⟨rfl, by decide, _, rfl, by decide⟩

theorem witness_StoppedStepPublishesNothing :
    let s : State := { stIn ALT false true 12 0x0F58 0x032D 0x1EB0 .none 66464 with
      input := [⟨66464, encode (.edge true)⟩, ⟨66464, encode .clear⟩] }
    s.running = false ∧ (∀ x ∈ s.input, x.isStart = false) ∧ ∃ t, step s = .next t ∧ t.slot = 0x1EB0 :=
  ⟨rfl, by decide, _, rfl, by decide⟩

/-- At the deadline exactly, by an edge that completes a word, and after it, by a STOP. -/
theorem witness_TimedReadIsOverAtAnyEventFromItsDeadline :
    let s (tau : Nat) (i : Instr) : State :=
      { st true true 15 0x1807 4000 0 (.timed 4000 200) 4100 with input := [⟨tau, encode i⟩] }
    (s 4200 (.edge true)).rd = .timed 4000 200 ∧
      decode REF (s 4200 (.edge true)).seq (encode (.edge true)) = .ok (.edge true) ∧
      (next? (step (s 4200 (.edge true)))).map (fun t => (t.tau, t.out)) = some (4200, [.done 4200 (.word 0x300F)]) ∧
      (next? (step (s 4201 .stop))).map (fun t => (t.tau, t.out)) = some (4201, [.done 4200 .noData]) ∧
      (next? (step (s 4199 .tick))).map State.rd = some (.timed 4000 200) :=
  ⟨rfl, rfl, by decide, by decide, by decide⟩

theorem witness_TimedReadCompletesByItsDeadline :
    let s := st true false 0 0 0 0 (.timed 8102 500) 8102
    s.Inv ∧ s.rd = .timed 8102 500 ∧ s.input = [] := ⟨inv_of_check (by decide), rfl, rfl⟩

/-- At the deadline and one microsecond before it, with the largest timeout, across the wrap of the counter. -/
theorem witness_CounterTestFirstHoldsAtTheDeadline :
    let s (tau : Nat) := st true false 0 0 0 0 (.timed 100 4294967295) tau
    (s 4294967395).Inv ∧ (s 4294967394).Inv ∧ (s 0).rd = .timed 100 4294967295 ∧ 100 ≤ (s 4294967394).tau ∧
      (s 4294967395).tau ≤ 100 + 4294967295 ∧ (s 4294967395).timedOutAtPorts = true ∧
      (s 4294967394).timedOutAtPorts = false :=
  ⟨inv_of_check (by decide), inv_of_check (by decide), rfl, by decide, by decide, by decide, by decide⟩

/-- A cycle with an edge and READ_T. -/
def someCycle : PortIn :=
  { rst := false, edgeValid := true, edgeLevel := true, tau := 5200, cmd := 5, cmdArg := 4294967295, parseWord := 65535 }

theorem witness_PortCycleIsTheRunOfItsEvents :
    let s := st true true 15 0x0C17 5000 0 .none 5200
    s.cfg.wf = true ∧ someCycle.wf s.cfg = true ∧ s.tau ≤ someCycle.tau ∧ someCycle.events.length = 2 := by decide

theorem witness_AtMostOneReadResultPerCycle :
    let s := st true true 15 0x0C17 5000 0 .none 5200
    someCycle.conforms s = true ∧ ∃ t, cycle someCycle s = .next t ∧ doneBetween s t = [.word 0x182F] :=
  ⟨by decide, _, rfl, by decide⟩

theorem witness_StatusAndParseOutputsOfACycle :
    let s := st true true 15 0x0C17 5000 0 .none 5200
    (next? (cycle { someCycle with cmd := 0, parseWord := 0x5081 } s)).map (fun t =>
        ((portOut { someCycle with cmd := 0, parseWord := 0x5081 } s t).slotValid,
          (portOut { someCycle with cmd := 0, parseWord := 0x5081 } s t).ack)) = some (true, some ⟨129⟩) := by decide

/-- A cycle with a word, one with no data, one with neither. -/
theorem witness_ReadOutputsShowTheResultOfTheCycle :
    let s (rd : PendingRead) := st true true 15 0x0C17 5000 0 rd 5199
    let outs (p : PortIn) (u : State) := (next? (cycle p u)).map (fun t =>
      ((portOut p u t).rdDone, (portOut p u t).rdNodata, (portOut p u t).rdWord))
    someCycle.conforms (s .none) = true ∧ outs someCycle (s .none) = some (true, some false, some 0x182F) ∧
      PortIn.conforms { someCycle with edgeValid := false, cmd := 2 } (s (.timed 5000 200)) = true ∧
      outs { someCycle with edgeValid := false, cmd := 2 } (s (.timed 5000 200)) = some (true, some true, none) ∧
      outs { someCycle with edgeValid := false } (s .none) = some (false, none, none) := by decide

theorem witness_ReadResultsEncodeApart :
    ReadResult.toInt (.word 0x5081) = ReadResult.toInt (.word 0x5081) ∧
      ReadResult.toInt (.word 0) ≠ ReadResult.toInt .noData := by decide

end Sys2Proof.Tests
end

namespace Sys2Proof.Machine

/-! ### What an operation leaves to its environment

No operation writes the configuration, the time or the script, and none takes an output back: R7, R15 and R19 of
spec/00_scope.md, rule by rule. -/

/-- From `s` to `t` nothing of the environment's is written, and outputs are only added. -/
structure Extends (s t : State) : Prop where
  cfg   : t.cfg = s.cfg
  tau   : t.tau = s.tau
  input : t.input = s.input
  out   : ∃ l, t.out = s.out ++ l

theorem Extends.of_eq {s t : State} (hcfg : t.cfg = s.cfg) (htau : t.tau = s.tau) (hinput : t.input = s.input)
    (hout : t.out = s.out) : Extends s t :=
  ⟨hcfg, htau, hinput, [], by simp [hout]⟩

theorem Extends.refl (s : State) : Extends s s := .of_eq rfl rfl rfl rfl

theorem Extends.trans {s t u : State} (h : Extends s t) (h' : Extends t u) : Extends s u := by
  obtain ⟨l, hl⟩ := h.out
  obtain ⟨l', hl'⟩ := h'.out
  exact ⟨h'.cfg.trans h.cfg, h'.tau.trans h.tau, h'.input.trans h.input, l ++ l', by simp [hl', hl]⟩

theorem finishRead_extends (s : State) (t : Nat) (r : ReadResult) : Extends s (finishRead s t r) :=
  ⟨rfl, rfl, rfl, _, rfl⟩

theorem deliverWord_extends (s : State) : Extends s (deliverWord s) := ⟨rfl, rfl, rfl, _, rfl⟩

theorem callParse_extends (k : Kind) (w : Nat) (s : State) : Extends s (callParse k w s) :=
  ⟨rfl, rfl, rfl, _, rfl⟩

theorem setRunning_extends (s : State) (b : Bool) : Extends s (s.setRunning b) := .of_eq rfl rfl rfl rfl

theorem markEdge_extends (s : State) : Extends s s.markEdge := .of_eq rfl rfl rfl rfl

theorem hunt_extends (s : State) : Extends s (hunt s) := .of_eq rfl rfl rfl rfl

theorem syncRule_extends (s : State) : Extends s (syncRule s) := .of_eq rfl rfl rfl rfl

theorem publishRule_extends (a : Nat) (s : State) : Extends s (publishRule a s) := .of_eq rfl rfl rfl rfl

theorem glitchRule_extends (s : State) : Extends s (glitchRule s) := .of_eq rfl rfl rfl rfl

theorem resetRule_extends (s : State) : Extends s (resetRule s) := .of_eq rfl rfl rfl rfl

theorem expire_extends (s : State) : Extends s (expire s) := by
  rcases expire_cases s with ⟨h, -⟩ | ⟨_, _, -, -, h⟩ <;> rw [h]
  · exact .refl s
  · exact finishRead_extends ..

theorem resolve_extends (s : State) : Extends s (resolve s) := by
  rcases resolve_cases s with ⟨h, -⟩ | ⟨-, -, h⟩ | ⟨_, _, -, -, -, h⟩ <;> rw [h]
  · exact .refl s
  · exact deliverWord_extends s
  · exact finishRead_extends ..

theorem bitRule_extends (b : Bool) (s : State) : Extends s (bitRule b s) := by
  rcases bitRule_cases b s with ⟨-, h⟩ | ⟨-, -, h⟩ | ⟨-, -, h⟩ <;> rw [h]
  · exact .refl s
  · exact publishRule_extends ..
  · exact .of_eq rfl rfl rfl rfl

theorem classRule_extends (c : IntervalClass) (s : State) : Extends s (classRule c s) := by
  rcases classRule_cases c s with ⟨-, h⟩ | ⟨-, h⟩ | ⟨-, h⟩ | ⟨-, h⟩ <;> rw [h]
  · exact syncRule_extends s
  · exact bitRule_extends false s
  · exact bitRule_extends true s
  · exact hunt_extends s

/-- An edge adds to its class's rule nothing but its own time of reference. -/
theorem deliverEdge_extends {rule : State → State} (hrule : ∀ u, Extends u (rule u)) (s : State) :
    Extends s (deliverEdge rule s) := by
  rcases deliverEdge_cases rule s with ⟨-, h⟩ | ⟨-, h⟩ <;> rw [h]
  · exact (markEdge_extends s).trans (hrule s.markEdge)
  · exact .refl s

theorem issueRead_extends {r : PendingRead} {s t : State} (h : issueRead r s = .next t) : Extends s t := by
  rcases issueRead_cases r s with ⟨-, -, h'⟩ | ⟨-, -, h'⟩ | ⟨-, h'⟩ <;> cases h'.symm.trans h
  · exact .of_eq (by simp) (by simp) (by simp) (by simp)
  · exact .refl s

theorem stopRule_extends {s t : State} (h : stopRule s = .next t) : Extends s t := by
  rcases stopRule_cases s with ⟨-, h'⟩ | ⟨_, _, -, h'⟩ <;> cases h'.symm.trans h
  · exact setRunning_extends s false
  · exact (setRunning_extends s false).trans (finishRead_extends ..)

/-- The phases of R16 around a rule that extends: `expire`, the rule, `resolve`. -/
theorem event_extends {rule : State → Result} (hrule : ∀ {u v}, rule u = .next v → Extends u v) {s t : State}
    (h : event rule s = .next t) : Extends s t := by
  obtain ⟨u, hu, rfl⟩ := event_next h
  exact ((expire_extends s).trans (hrule hu)).trans (resolve_extends u)

theorem plainEvent_extends {rule : State → State} (hrule : ∀ u, Extends u (rule u)) {s t : State}
    (h : plainEvent rule s = .next t) : Extends s t := by
  refine event_extends (rule := fun u => .next (rule u)) ?_ h
  rintro u _ ⟨⟩
  exact hrule u

/-- Every operation leaves the environment's fields alone and takes no output back. -/
theorem exec_extends {i : Instr} {s t : State} (h : exec i s = .next t) : Extends s t := by
  cases i with
  | nop | reserved6 | reserved7 | tick => exact plainEvent_extends .refl h
  | start => exact plainEvent_extends (setRunning_extends · true) h
  | stop => exact event_extends stopRule_extends h
  | clear => exact plainEvent_extends hunt_extends h
  | read | readT _ => exact event_extends issueRead_extends h
  | edge _ => exact plainEvent_extends (deliverEdge_extends (classRule_extends _)) h
  | sync _ => exact plainEvent_extends (deliverEdge_extends syncRule_extends) h
  | bit0 _ => exact plainEvent_extends (deliverEdge_extends (bitRule_extends false)) h
  | bit1 _ => exact plainEvent_extends (deliverEdge_extends (bitRule_extends true)) h
  | glitch _ => exact plainEvent_extends (deliverEdge_extends glitchRule_extends) h
  | publish a _ => exact plainEvent_extends (deliverEdge_extends (publishRule_extends a)) h
  | parseProg _ | parseCtrl _ | parsePace _ | parseAct _ | parseAck _ =>
    cases h
    exact callParse_extends ..
  | reset =>
    cases h
    exact resetRule_extends s

/-- What a step answers extends the state that took the stimulus, for an operation and for a packet of no kind alike. -/
theorem step_extends {s t : State} (h : step s = .next t) : Extends (consume s (nextStimulus s)) t := by
  obtain ⟨-, -, ⟨i, -, hexec⟩ | ⟨w, -, rfl⟩⟩ := step_cases h
  · exact exec_extends hexec
  · exact ⟨rfl, rfl, rfl, _, rfl⟩

/-- Settles O45: the state that took the stimulus has the script's tail and a time no earlier, and the operation
extends it. -/
theorem stepKeepsConfigurationTimeAndOutputs : Obligations.StepKeepsConfigurationTimeAndOutputs := by
  intro s t h
  obtain ⟨-, htime, -⟩ := step_cases h
  obtain ⟨hcfg, htau, hinput, hout⟩ := step_extends h
  exact ⟨hcfg, htime.trans_eq htau.symm, hinput, hout⟩

/-! ### A read issued past the pending one's deadline -/

theorem expire_of_passed {s : State} {t0 tmo : Nat} (hrd : s.rd = .timed t0 tmo) (h : deadline t0 tmo < s.tau) :
    expire s = finishRead s (deadline t0 tmo) .noData := by
  simp [expire, hrd, h]

theorem resolve_of_held {s : State} (hrd : s.rd ≠ .none) (h : s.slot ≠ 0) : resolve s = deliverWord s := by
  cases hs : s.rd with
  | none => exact absurd hs hrd
  | untimed | timed t0 tmo => simp [resolve, memRead, hs, h]

theorem resolve_of_untimed_empty {s : State} (hrd : s.rd = .untimed) (h : s.slot = 0) : resolve s = s := by
  simp [resolve, memRead, hrd, h]

theorem resolve_of_timed_empty {s : State} {t0 tmo : Nat} (hrd : s.rd = .timed t0 tmo) (h : s.slot = 0) :
    resolve s = if deadline t0 tmo ≤ s.tau then finishRead s s.tau .noData else s := by
  simp [resolve, memRead, hrd, h]

theorem issueRead_of_idle {s : State} (r : PendingRead) (hrun : s.running = true) (hrd : s.rd = .none) :
    issueRead r s = .next ((s.loadReadRegs r).setRd r) := by
  simp [issueRead, hrun, hrd]

/-- The order of the phases (R16): the old read is settled by `expire`, so the new one finds none pending. -/
theorem event_issueRead_of_passed {s : State} {t0 d : Nat} (r : PendingRead) (hrun : s.running = true)
    (hrd : s.rd = .timed t0 d) (hpast : deadline t0 d < s.tau) :
    event (issueRead r) s = .next (resolve (((finishRead s (deadline t0 d) .noData).loadReadRegs r).setRd r)) := by
  have hissue := issueRead_of_idle (s := finishRead s (deadline t0 d) .noData) r hrun rfl
  simp only [event, expire_of_passed hrd hpast, hissue]

/-- Settles O20: `expire` settles the old read, then the new one meets a held word, its own deadline, or neither. -/
theorem readAfterAPassedDeadlineIsIssued : Obligations.ReadAfterAPassedDeadlineIsIssued := by
  rintro s t0 d tmo _ hrun hrd hpast rfl
  constructor
  · refine (event_issueRead_of_passed .untimed hrun hrd hpast).trans (congrArg _ ?_)
    by_cases hslot : s.slot = 0
    · rw [if_pos hslot]
      exact resolve_of_untimed_empty rfl hslot
    · rw [if_neg hslot]
      refine Eq.trans (resolve_of_held nofun hslot) ?_
      ext <;> simp [deadline, State.now, counterAt]
  · refine (event_issueRead_of_passed (.timed s.tau tmo) hrun hrd hpast).trans (congrArg _ ?_)
    by_cases hslot : s.slot = 0
    · rw [if_neg (not_not.mpr hslot)]
      refine Eq.trans (resolve_of_timed_empty rfl hslot) ?_
      by_cases htmo : tmo = 0
      · rw [if_pos htmo, if_pos (by simp [deadline, htmo])]
        ext <;> simp [deadline, State.now, counterAt]
      · rw [if_neg htmo, if_neg (by simp [deadline]; omega)]
        rfl
    · rw [if_pos hslot]
      refine Eq.trans (resolve_of_held nofun hslot) ?_
      ext <;> simp [deadline, State.now, counterAt]

/-! ### What a step refuses -/

theorem nextStimulus_cons {s : State} {x : Stimulus} {rest : List Stimulus} (h : s.input = x :: rest) :
    nextStimulus s = x := by
  simp [nextStimulus, h]

/-- Every record but an interval comes at its stamp. -/
theorem stimulusTime_of_not_interval {x : Stimulus} (s : State) (h : x.record.format ≠ .interval) :
    stimulusTime s x = x.tau := by
  cases hf : x.record.format with
  | interval => exact absurd hf h
  | command | event | packet | call => simp [stimulusTime, hf]

/-- An edge given by its interval never comes before the present. -/
theorem le_stimulusTime_of_interval {x : Stimulus} (s : State) (h : x.record.format = .interval) :
    s.tau ≤ stimulusTime s x := by
  simp only [stimulusTime, h, edgeTime]
  omega

theorem le_stimulusTime {s : State} {x : Stimulus} (h : s.tau ≤ x.tau) : s.tau ≤ stimulusTime s x := by
  by_cases hf : x.record.format = .interval
  · exact le_stimulusTime_of_interval s hf
  · rwa [stimulusTime_of_not_interval s hf]

/-- A record that is no operation is refused by its error, but for a packet of no kind (R85 (b)). -/
theorem undecoded_of_ne_noKind {e : DecodeError} (s : State) (h : ∀ w, e ≠ .noKind w) :
    undecoded e s = .refused (.undecodable e) := by
  cases e with
  | noKind w => exact absurd rfl (h w)
  | commandTooWide | eventTooWide | intervalTooWide | wordTooWide | noSuchFunction => rfl

theorem step_of_not_wf {s : State} (h : s.cfg.wf = false) : step s = .refused .badConfig := by
  simp [step, h]

theorem step_of_late {s : State} (hwf : s.cfg.wf = true) (h : stimulusTime s (nextStimulus s) < s.tau) :
    step s = .refused .timeReversed := by
  simp [step, hwf, h]

theorem step_of_undecoded {s : State} {e : DecodeError} (hwf : s.cfg.wf = true)
    (htime : s.tau ≤ stimulusTime s (nextStimulus s))
    (h : decode s.cfg s.seq (nextStimulus s).record = .error e) :
    step s = undecoded e (consume s (nextStimulus s)) := by
  simp [step, hwf, Nat.not_lt.mpr htime, h]

/-- Settles O5, a clause for each of the step's three tests: the configuration, the time, the record. -/
theorem stepRefusesWhatTheEnvironmentMayNotDo : Obligations.StepRefusesWhatTheEnvironmentMayNotDo := by
  refine ⟨fun s => step_of_not_wf, ?_, ?_⟩
  · intro s x rest hwf hin hformat hlate
    refine step_of_late hwf ?_
    rwa [nextStimulus_cons hin, stimulusTime_of_not_interval s hformat]
  · intro s x rest e hwf hin htime hdecode hkind
    obtain rfl := nextStimulus_cons hin
    exact (step_of_undecoded hwf (le_stimulusTime htime) hdecode).trans (undecoded_of_ne_noKind _ hkind)

end Sys2Proof.Machine

namespace Sys2Proof

/-! ### The operands the decoder hands to an operation -/

/-- The timeout of READ_T fits the counter and the word of PUBLISH the slot: the two operands that an operation stores. -/
def Instr.OperandFits (P : Config) : Instr → Prop
  | .readT tmo => tmo < 2 ^ P.tw
  | .publish a _ => a < 2 ^ P.n
  | _ => True

theorem decodeCommand_operandFits {P : Config} {bits : Nat} {i : Instr} (h : decodeCommand P bits = .ok i) :
    i.OperandFits P := by
  unfold decodeCommand at h
  split at h
  · next hbits =>
    cases h
    have harg : bits / 8 < 2 ^ P.tw := by
      rw [Nat.pow_add] at hbits
      omega
    unfold commandInstr
    split
    case h_6 => exact harg
    all_goals trivial
  · cases h

theorem decodeEvent_operandFits {P : Config} {bits : Nat} {i : Instr} (h : decodeEvent bits = .ok i) :
    i.OperandFits P := by
  unfold decodeEvent at h
  split at h
  · cases h
    split
    · trivial
    · split <;> trivial
  · cases h

/-- A bit carries no operand that is stored, and the word of PUBLISH comes out of the accumulator's shift. -/
theorem decodeBit_operandFits (P : Config) (q : Seq) (b : Bool) (dt : Nat) : (decodeBit P q b dt).OperandFits P := by
  unfold decodeBit
  split
  · exact Machine.shiftIn_lt P q.acc b
  · split <;> trivial

theorem decodeInterval_operandFits {P : Config} {q : Seq} {dt : Nat} {i : Instr}
    (h : decodeInterval P q dt = .ok i) : i.OperandFits P := by
  obtain ⟨-, ⟨-, rfl⟩ | ⟨-, rfl⟩ | ⟨-, rfl⟩ | ⟨-, rfl⟩⟩ := decodeInterval_ok h
  · trivial
  · exact decodeBit_operandFits ..
  · exact decodeBit_operandFits ..
  · trivial

theorem decodePacket_operandFits {P : Config} {w : Nat} {i : Instr} (h : decodePacket P w = .ok i) :
    i.OperandFits P := by
  obtain ⟨-, k, -, rfl⟩ := decodePacket_ok h
  cases k <;> trivial

theorem decodeCall_operandFits {P : Config} {bits : Nat} {i : Instr} (h : decodeCall P bits = .ok i) :
    i.OperandFits P := by
  unfold decodeCall at h
  split at h
  · split at h <;> cases h <;> trivial
  · cases h

/-- Whatever the format, a decoded operation stores no operand wider than its register. -/
theorem decode_operandFits {P : Config} {q : Seq} {r : Record} {i : Instr} (h : decode P q r = .ok i) :
    i.OperandFits P := by
  unfold decode at h
  split at h
  · exact decodeCommand_operandFits h
  · exact decodeEvent_operandFits h
  · exact decodeInterval_operandFits h
  · exact decodePacket_operandFits h
  · exact decodeCall_operandFits h

end Sys2Proof

namespace Sys2Proof.Machine

/-! ### The invariant, phase by phase

The rule of an event may put a word beside a pending read, so R30 (d) of spec/10_state.md holds again only after `resolve`;
every other clause of the invariant is kept by each phase on its own. -/

/-- The clauses of `State.Inv` but `reading`: what holds between the phases of an event. -/
structure State.PhaseInv (s : State) : Prop where
  cfg_wf        : s.cfg.wf = true
  idx_lt        : s.idx < s.cfg.n
  acc_lt        : s.acc < 2 ^ s.idx
  hunting       : s.synced = false → s.acc = 0 ∧ s.idx = 0
  slot_lt       : s.slot < 2 ^ s.cfg.n
  edge_lt       : s.lastEdgeTime < 2 ^ s.cfg.tw
  timeout_lt    : ∀ t0 tmo, s.rd = .timed t0 tmo → tmo < 2 ^ s.cfg.tw
  t0_lt         : s.rdT0 < 2 ^ s.cfg.tw
  tmo_lt        : s.rdTmo < 2 ^ s.cfg.tw
  registers     : ∀ t0 tmo, s.rd = .timed t0 tmo → s.rdT0 = counterAt s.cfg t0 ∧ s.rdTmo = tmo
  timed_running : ∀ t0 tmo, s.rd = .timed t0 tmo → s.running = true

theorem State.Inv.phaseInv {s : State} (h : s.Inv) : s.PhaseInv := { h with }

theorem State.PhaseInv.inv {s : State} (h : s.PhaseInv) (hreading : s.rd ≠ .none → s.slot = 0) : s.Inv :=
  { h with reading := hreading }

theorem now_lt (s : State) : s.now < 2 ^ s.cfg.tw := Nat.mod_lt _ (Nat.two_pow_pos _)

section
variable {s : State}

theorem State.PhaseInv.width_pos (h : s.PhaseInv) : 0 < s.cfg.n :=
  Nat.lt_of_lt_of_le (by decide) (Config.width_of_wf h.cfg_wf).1

theorem State.PhaseInv.setSeq (h : s.PhaseInv) {b : Bool} {a k : Nat} (hk : k < s.cfg.n) (ha : a < 2 ^ k)
    (hhunting : b = false → a = 0 ∧ k = 0) : (s.setSeq b a k).PhaseInv :=
  { h with idx_lt := hk, acc_lt := ha, hunting := hhunting }

theorem State.PhaseInv.hunt (h : s.PhaseInv) : (hunt s).PhaseInv :=
  h.setSeq h.width_pos (by decide) (fun _ => ⟨rfl, rfl⟩)

theorem State.PhaseInv.syncRule (h : s.PhaseInv) : (syncRule s).PhaseInv :=
  h.setSeq h.width_pos (by decide) nofun

theorem State.PhaseInv.memWrite (h : s.PhaseInv) {v : Nat} (hv : v < 2 ^ s.cfg.n) : (memWrite s v).PhaseInv :=
  { h with slot_lt := hv }

theorem State.PhaseInv.publishRule (h : s.PhaseInv) {a : Nat} (ha : a < 2 ^ s.cfg.n) :
    (publishRule a s).PhaseInv :=
  (h.memWrite ha).hunt

theorem State.PhaseInv.markEdge (h : s.PhaseInv) : s.markEdge.PhaseInv :=
  { h with edge_lt := now_lt s }

/-- A shifted accumulator is below twice the bound it had, and R104's `mod` cuts nothing off. -/
theorem State.PhaseInv.bitRule (h : s.PhaseInv) (b : Bool) : (bitRule b s).PhaseInv := by
  rcases bitRule_cases b s with ⟨-, h'⟩ | ⟨-, -, h'⟩ | ⟨-, hidx, h'⟩ <;> rw [h']
  · exact h
  · exact h.publishRule (shiftIn_lt ..)
  · have hacc := h.acc_lt
    have hlt := h.idx_lt
    have hb := Bool.toNat_le b
    refine h.setSeq (by omega) ?_ nofun
    rw [shiftIn_exact s.cfg s.acc s.idx b hacc hlt, Nat.pow_succ]
    omega

theorem State.PhaseInv.classRule (h : s.PhaseInv) (c : IntervalClass) : (classRule c s).PhaseInv := by
  rcases classRule_cases c s with ⟨-, h'⟩ | ⟨-, h'⟩ | ⟨-, h'⟩ | ⟨-, h'⟩ <;> rw [h']
  · exact h.syncRule
  · exact h.bitRule false
  · exact h.bitRule true
  · exact h.hunt

theorem State.PhaseInv.deliverEdge (h : s.PhaseInv) {rule : State → State}
    (hrule : s.markEdge.PhaseInv → (rule s.markEdge).PhaseInv) : (deliverEdge rule s).PhaseInv := by
  rcases deliverEdge_cases rule s with ⟨-, h'⟩ | ⟨-, h'⟩ <;> rw [h']
  · exact hrule h.markEdge
  · exact h

theorem State.PhaseInv.finishRead (h : s.PhaseInv) (t : Nat) (r : ReadResult) : (finishRead s t r).PhaseInv :=
  { h with timeout_lt := nofun, registers := nofun, timed_running := nofun }

/-- Only what clears `running` must leave no timed read behind. -/
theorem State.PhaseInv.setRunning (h : s.PhaseInv) {b : Bool}
    (hrd : ∀ t0 tmo, s.rd = .timed t0 tmo → b = true) : (s.setRunning b).PhaseInv :=
  { h with timed_running := hrd }

theorem State.PhaseInv.stopRule (h : s.PhaseInv) {t : State} (hstop : stopRule s = .next t) : t.PhaseInv := by
  rcases stopRule_cases s with ⟨hrd, h'⟩ | ⟨_, _, -, h'⟩ <;> cases h'.symm.trans hstop
  · exact h.setRunning (fun t0 tmo hr => absurd hr (hrd t0 tmo))
  · exact (h.finishRead s.tau .noData).setRunning nofun

/-- A timed read that is issued now loads the registers with its own issue and timeout. -/
theorem State.PhaseInv.issueRead (h : s.PhaseInv) {r : PendingRead} {t : State}
    (hr : ∀ t0 tmo, r = .timed t0 tmo → t0 = s.tau ∧ tmo < 2 ^ s.cfg.tw) (hissue : issueRead r s = .next t) :
    t.PhaseInv := by
  rcases issueRead_cases r s with ⟨hrun, -, h'⟩ | ⟨-, -, h'⟩ | ⟨-, h'⟩ <;> cases h'.symm.trans hissue
  · cases r with
    | none | untimed =>
      exact { h with t0_lt := now_lt s, timeout_lt := nofun, registers := nofun, timed_running := nofun }
    | timed t0 tmo =>
      obtain ⟨rfl, htmo⟩ := hr t0 tmo rfl
      refine { h with t0_lt := now_lt s, tmo_lt := htmo, timeout_lt := ?_, registers := ?_,
                      timed_running := fun _ _ _ => hrun }
      · rintro _ _ ⟨⟩
        exact htmo
      · rintro _ _ ⟨⟩
        exact ⟨rfl, rfl⟩
  · exact h

theorem State.PhaseInv.expire (h : s.PhaseInv) : (expire s).PhaseInv := by
  rcases expire_cases s with ⟨h', -⟩ | ⟨_, _, -, -, h'⟩ <;> rw [h']
  · exact h
  · exact h.finishRead ..

/-- The phase that ends an event brings R30 (d) back. -/
theorem State.PhaseInv.resolve (h : s.PhaseInv) : (resolve s).Inv := by
  refine State.PhaseInv.inv ?_ (resolve_reading s)
  rcases resolve_cases s with ⟨h', -⟩ | ⟨-, -, h'⟩ | ⟨_, _, -, -, -, h'⟩ <;> rw [h']
  · exact h
  · exact (h.memWrite (Nat.two_pow_pos _)).finishRead ..
  · exact h.finishRead ..

theorem State.Inv.event (h : s.Inv) {rule : State → Result} {t : State}
    (hrule : ∀ {u}, (Machine.expire s).PhaseInv → rule (Machine.expire s) = .next u → u.PhaseInv)
    (hevent : event rule s = .next t) : t.Inv := by
  obtain ⟨u, hu, rfl⟩ := event_next hevent
  exact (hrule h.phaseInv.expire hu).resolve

theorem State.Inv.plainEvent (h : s.Inv) {rule : State → State} {t : State}
    (hrule : (Machine.expire s).PhaseInv → (rule (Machine.expire s)).PhaseInv)
    (hevent : plainEvent rule s = .next t) : t.Inv := by
  cases hevent
  exact (hrule h.phaseInv.expire).resolve

/-- A parse call writes an output alone, which no clause reads. -/
theorem State.Inv.callParse (h : s.Inv) (k : Kind) (w : Nat) : (callParse k w s).Inv := { h with }

/-- Time and script are the environment's, and no clause reads them. -/
theorem State.Inv.consume (h : s.Inv) (x : Stimulus) : (consume s x).Inv := { h with }

/-- The values of reset (R34) meet the invariant, `last_edge_time` being any value of the counter's width. -/
theorem inv_of_cleared (hwf : s.cfg.wf = true) (hidx : s.idx = 0) (hacc : s.acc = 0) (hslot : s.slot = 0)
    (hrd : s.rd = .none) (hrdT0 : s.rdT0 = 0) (hrdTmo : s.rdTmo = 0) (hedge : s.lastEdgeTime < 2 ^ s.cfg.tw) :
    s.Inv where
  cfg_wf := hwf
  idx_lt := by
    have := Config.width_of_wf hwf
    omega
  acc_lt := by simp [hacc]
  hunting _ := ⟨hacc, hidx⟩
  reading _ := hslot
  slot_lt := by simp [hslot]
  edge_lt := hedge
  timeout_lt := by simp [hrd]
  t0_lt := by simp [hrdT0]
  tmo_lt := by simp [hrdTmo]
  registers := by simp [hrd]
  timed_running := by simp [hrd]

theorem resetRule_inv (hwf : s.cfg.wf = true) : (resetRule s).Inv :=
  inv_of_cleared hwf rfl rfl rfl rfl rfl rfl (Nat.mod_lt _ (Nat.two_pow_pos _))

theorem resetOf_inv {P : Config} {t : Nat} (tau : Nat) (script : List Stimulus) (hP : P.wf = true)
    (ht : t < 2 ^ P.tw) : State.Inv { State.resetOf P t with tau := tau, input := script } :=
  inv_of_cleared hP rfl rfl rfl rfl rfl rfl ht

/-- Every operation whose operand fits its register keeps the invariant. -/
theorem State.Inv.exec (h : s.Inv) {i : Instr} {t : State} (hfits : i.OperandFits s.cfg)
    (hexec : exec i s = .next t) : t.Inv := by
  cases i with
  | nop | reserved6 | reserved7 | tick => exact h.plainEvent id hexec
  | start => exact h.plainEvent (rule := (·.setRunning true)) (·.setRunning (fun _ _ _ => rfl)) hexec
  | stop => exact h.event (·.stopRule) hexec
  | clear => exact h.plainEvent (·.hunt) hexec
  | read => exact h.event (rule := issueRead .untimed) (·.issueRead nofun) hexec
  | readT tmo =>
    refine h.event (·.issueRead ?_) hexec
    rintro _ _ ⟨⟩
    exact ⟨(expire_tau s).symm, by rwa [expire_cfg]⟩
  | edge _ => exact h.plainEvent (·.deliverEdge (·.classRule _)) hexec
  | sync _ => exact h.plainEvent (·.deliverEdge (·.syncRule)) hexec
  | bit0 _ => exact h.plainEvent (·.deliverEdge (·.bitRule false)) hexec
  | bit1 _ => exact h.plainEvent (·.deliverEdge (·.bitRule true)) hexec
  | glitch _ => exact h.plainEvent (·.deliverEdge (·.hunt)) hexec
  | publish a _ =>
    refine h.plainEvent (·.deliverEdge (·.publishRule ?_)) hexec
    rwa [markEdge_cfg, expire_cfg]
  | parseProg _ | parseCtrl _ | parsePace _ | parseAct _ | parseAck _ =>
    cases hexec
    exact h.callParse ..
  | reset =>
    cases hexec
    exact resetRule_inv h.cfg_wf

end

/-- Settles O43: the decoder bounds the operand, and the operation keeps the invariant phase by phase. -/
theorem stepKeepsTheInvariant : Obligations.StepKeepsTheInvariant := by
  intro s t h hstep
  obtain ⟨-, -, ⟨i, hdecode, hexec⟩ | ⟨w, -, rfl⟩⟩ := step_cases hstep
  · exact (h.consume _).exec (decode_operandFits hdecode) hexec
  · exact { h.consume (nextStimulus s) with }

theorem Reachable.inv {s : State} (h : Reachable s) : s.Inv := by
  induction h with
  | reset P t tau script hP ht => exact resetOf_inv tau script hP ht
  | step s t _ hstep ih => exact stepKeepsTheInvariant s t ih hstep

/-- Settles O44: a reachable state meets the whole invariant, of which R30 (a) to (d) are clauses. -/
theorem reachableStatesMeetTheFourInvariants : Obligations.ReachableStatesMeetTheFourInvariants := by
  intro s h
  exact ⟨h.inv.idx_lt, h.inv.acc_lt, h.inv.hunting, h.inv.reading⟩

end Sys2Proof.Machine

namespace Sys2Proof.Machine

/-! ### Who may write what

The frame of an operation is transitive, so the frame of an event is that of its rule between those of its phases. -/

/-- An output that left the block between `s` and `t`. -/
def Delivered (s t : State) (o : Output) : Prop := o ∈ t.out.drop s.out.length

theorem delivered_of_out {s t : State} {o : Output} (h : t.out = s.out ++ [o]) : Delivered s t o := by
  simp [Delivered, h]

theorem Delivered.of_extends_left {s t u : State} {o : Output} (hst : Extends s t) (h : Delivered t u o) :
    Delivered s u o := by
  obtain ⟨l, hl⟩ := hst.out
  rw [Delivered, hl, List.length_append, ← List.drop_drop] at h
  exact List.mem_of_mem_drop h

theorem Delivered.of_extends_right {s t u : State} {o : Output} (hst : Extends s t) (htu : Extends t u)
    (h : Delivered s t o) : Delivered s u o := by
  obtain ⟨l, hl⟩ := hst.out
  obtain ⟨l', hl'⟩ := htu.out
  simp only [Delivered, hl', hl, List.append_assoc, List.drop_left] at h ⊢
  exact List.mem_append_left l' h

/-- What the operation `i` may write on the way from `s` to `t` (spec/10_state.md R33; for the port-level registers
notes/assumptions/28.md). -/
structure Frame (i : Instr) (s t : State) : Prop extends Extends s t where
  running      : t.running ≠ s.running → i = .start ∨ i = .stop ∨ i = .reset := by simp
  seq          : t.seq ≠ s.seq → (i.isEdge = true ∧ s.running = true) ∨ i = .clear ∨ i = .reset := by simp
  lastEdgeTime : t.lastEdgeTime ≠ s.lastEdgeTime → (i.isEdge = true ∧ s.running = true) ∨ i = .reset := by simp
  slot         : t.slot ≠ s.slot → (i.isEdge = true ∧ s.running = true) ∨ i = .reset ∨
    (t.slot = 0 ∧ Delivered s t (.done s.tau (.word s.slot))) := by simp
  rd           : t.rd ≠ s.rd → i = .read ∨ (∃ tmo, i = .readT tmo) ∨ i = .reset ∨
    (t.rd = .none ∧ ∃ u r, Delivered s t (.done u r)) := by simp
  rdT0         : t.rdT0 ≠ s.rdT0 → i = .read ∨ (∃ tmo, i = .readT tmo) ∨ i = .reset := by simp
  rdTmo        : t.rdTmo ≠ s.rdTmo → (∃ tmo, i = .readT tmo) ∨ i = .reset := by simp
  draws        : t.draws ≠ s.draws → i = .reset := by simp

theorem Frame.refl (i : Instr) (s : State) : Frame i s s := { Extends.refl s with }

/-- An edge finds the callback as the state before it had it. -/
theorem Frame.running_of_isEdge {i : Instr} {s t : State} (h : Frame i s t) (hi : i.isEdge = true) :
    t.running = s.running := by
  by_contra hne
  rcases h.running hne with rfl | rfl | rfl <;> cases hi

theorem Frame.delivered_edge {i : Instr} {s t : State} (h : Frame i s t) :
    i.isEdge = true ∧ t.running = true → i.isEdge = true ∧ s.running = true := by
  rintro ⟨hi, hrun⟩
  exact ⟨hi, h.running_of_isEdge hi ▸ hrun⟩

theorem Frame.slot_trans {i : Instr} {s t u : State} (h : Frame i s t) (h' : Frame i t u) (hne : u.slot ≠ s.slot) :
    (i.isEdge = true ∧ s.running = true) ∨ i = .reset ∨
      (u.slot = 0 ∧ Delivered s u (.done s.tau (.word s.slot))) := by
  by_cases ht : t.slot = s.slot
  · refine (h'.slot (ht ▸ hne)).imp h.delivered_edge (Or.imp_right ?_)
    rintro ⟨hu, hdone⟩
    rw [h.tau, ht] at hdone
    exact ⟨hu, hdone.of_extends_left h.toExtends⟩
  · rcases h.slot ht with hedge | hreset | ⟨ht0, hdone⟩
    · exact .inl hedge
    · exact .inr (.inl hreset)
    · by_cases hu : u.slot = t.slot
      · exact .inr (.inr ⟨hu.trans ht0, hdone.of_extends_right h.toExtends h'.toExtends⟩)
      · refine (h'.slot hu).imp h.delivered_edge (Or.imp_right ?_)
        rintro ⟨hu0, -⟩
        exact ⟨hu0, hdone.of_extends_right h.toExtends h'.toExtends⟩

theorem Frame.rd_trans {i : Instr} {s t u : State} (h : Frame i s t) (h' : Frame i t u) (hne : u.rd ≠ s.rd) :
    i = .read ∨ (∃ tmo, i = .readT tmo) ∨ i = .reset ∨ (u.rd = .none ∧ ∃ v r, Delivered s u (.done v r)) := by
  by_cases hu : u.rd = t.rd
  · rw [hu] at hne ⊢
    refine (h.rd hne).imp_right (Or.imp_right (Or.imp_right ?_))
    rintro ⟨ht, v, r, hdone⟩
    exact ⟨ht, v, r, hdone.of_extends_right h.toExtends h'.toExtends⟩
  · refine (h'.rd hu).imp_right (Or.imp_right (Or.imp_right ?_))
    rintro ⟨hnone, v, r, hdone⟩
    exact ⟨hnone, v, r, hdone.of_extends_left h.toExtends⟩

/-- A field that changes over two parts changes in one of them. -/
theorem changed_of_trans {α : Type} {a b c : α} {p : Prop} (h : b ≠ a → p) (h' : c ≠ b → p) (hne : c ≠ a) : p := by
  by_cases hb : b = a
  · exact h' (hb ▸ hne)
  · exact h hb

theorem Frame.trans {i : Instr} {s t u : State} (h : Frame i s t) (h' : Frame i t u) : Frame i s u where
  toExtends := h.toExtends.trans h'.toExtends
  running := changed_of_trans h.running h'.running
  seq := changed_of_trans h.seq (fun hne => (h'.seq hne).imp_left h.delivered_edge)
  lastEdgeTime := changed_of_trans h.lastEdgeTime (fun hne => (h'.lastEdgeTime hne).imp_left h.delivered_edge)
  slot := h.slot_trans h'
  rd := h.rd_trans h'
  rdT0 := changed_of_trans h.rdT0 h'.rdT0
  rdTmo := changed_of_trans h.rdTmo h'.rdTmo
  draws := changed_of_trans h.draws h'.draws

/-! The frames of what every event may do -/

theorem finishRead_frame (i : Instr) (s : State) (t : Nat) (r : ReadResult) : Frame i s (finishRead s t r) where
  toExtends := finishRead_extends s t r
  seq := absurd rfl
  rd _ := .inr (.inr (.inr ⟨rfl, t, r, delivered_of_out rfl⟩))

theorem deliverWord_frame (i : Instr) (s : State) : Frame i s (deliverWord s) where
  toExtends := deliverWord_extends s
  seq := absurd rfl
  slot _ := .inr (.inr ⟨rfl, delivered_of_out rfl⟩)
  rd _ := .inr (.inr (.inr ⟨rfl, s.tau, .word s.slot, delivered_of_out rfl⟩))

theorem expire_frame (i : Instr) (s : State) : Frame i s (expire s) := by
  rcases expire_cases s with ⟨h, -⟩ | ⟨_, _, -, -, h⟩ <;> rw [h]
  · exact .refl i s
  · exact finishRead_frame ..

theorem resolve_frame (i : Instr) (s : State) : Frame i s (resolve s) := by
  rcases resolve_cases s with ⟨h, -⟩ | ⟨-, -, h⟩ | ⟨_, _, -, -, -, h⟩ <;> rw [h]
  · exact .refl i s
  · exact deliverWord_frame i s
  · exact finishRead_frame ..

theorem event_frame {i : Instr} {rule : State → Result} (hrule : ∀ {u v}, rule u = .next v → Frame i u v)
    {s t : State} (h : event rule s = .next t) : Frame i s t := by
  obtain ⟨u, hu, rfl⟩ := event_next h
  exact ((expire_frame i s).trans (hrule hu)).trans (resolve_frame i u)

theorem plainEvent_frame {i : Instr} {rule : State → State} (hrule : ∀ u, Frame i u (rule u)) {s t : State}
    (h : plainEvent rule s = .next t) : Frame i s t := by
  refine event_frame (rule := fun u => .next (rule u)) ?_ h
  rintro u _ ⟨⟩
  exact hrule u

/-! The frames of the rules -/

theorem setRunning_frame {i : Instr} (hi : i = .start ∨ i = .stop) (s : State) (b : Bool) :
    Frame i s (s.setRunning b) where
  toExtends := setRunning_extends s b
  running _ := hi.imp_right .inl
  seq := absurd rfl

theorem stopRule_frame {s t : State} (h : stopRule s = .next t) : Frame .stop s t := by
  rcases stopRule_cases s with ⟨-, h'⟩ | ⟨_, _, -, h'⟩ <;> cases h'.symm.trans h
  · exact setRunning_frame (.inr rfl) s false
  · exact (setRunning_frame (.inr rfl) s false).trans (finishRead_frame ..)

theorem clear_frame (s : State) : Frame .clear s (hunt s) where
  toExtends := hunt_extends s
  seq _ := .inr (.inl rfl)

theorem issueRead_untimed_frame {s t : State} (h : issueRead .untimed s = .next t) : Frame .read s t := by
  rcases issueRead_cases .untimed s with ⟨-, -, h'⟩ | ⟨-, -, h'⟩ | ⟨-, h'⟩ <;> cases h'.symm.trans h
  · exact { issueRead_extends h with seq := absurd rfl }
  · exact .refl ..

theorem issueRead_timed_frame {t0 tmo : Nat} {s t : State} (h : issueRead (.timed t0 tmo) s = .next t) :
    Frame (.readT tmo) s t := by
  rcases issueRead_cases (.timed t0 tmo) s with ⟨-, -, h'⟩ | ⟨-, -, h'⟩ | ⟨-, h'⟩ <;> cases h'.symm.trans h
  · exact { issueRead_extends h with seq := absurd rfl }
  · exact .refl ..

theorem resetRule_frame (s : State) : Frame .reset s (resetRule s) := { resetRule_extends s with }

theorem callParse_frame (i : Instr) (k : Kind) (w : Nat) (s : State) : Frame i s (callParse k w s) :=
  { callParse_extends k w s with seq := absurd rfl }

/-! A delivered edge writes the sequencing state, the slot and its own time; its class's rule reaches no other field. -/

/-- What the rule of an edge's class leaves alone. -/
structure EdgeRuleKeeps (s t : State) : Prop extends Extends s t where
  running : t.running = s.running := by rfl
  rd      : t.rd = s.rd := by rfl
  rdT0    : t.rdT0 = s.rdT0 := by rfl
  rdTmo   : t.rdTmo = s.rdTmo := by rfl
  draws   : t.draws = s.draws := by rfl

theorem hunt_keeps (s : State) : EdgeRuleKeeps s (hunt s) := { hunt_extends s with }

theorem syncRule_keeps (s : State) : EdgeRuleKeeps s (syncRule s) := { syncRule_extends s with }

theorem publishRule_keeps (a : Nat) (s : State) : EdgeRuleKeeps s (publishRule a s) := { publishRule_extends a s with }

theorem bitRule_keeps (b : Bool) (s : State) : EdgeRuleKeeps s (bitRule b s) := by
  have hext := bitRule_extends b s
  rcases bitRule_cases b s with ⟨-, h⟩ | ⟨-, -, h⟩ | ⟨-, -, h⟩ <;> rw [h] at hext ⊢ <;> exact { hext with }

theorem classRule_keeps (c : IntervalClass) (s : State) : EdgeRuleKeeps s (classRule c s) := by
  rcases classRule_cases c s with ⟨-, h⟩ | ⟨-, h⟩ | ⟨-, h⟩ | ⟨-, h⟩ <;> rw [h]
  · exact syncRule_keeps s
  · exact bitRule_keeps false s
  · exact bitRule_keeps true s
  · exact hunt_keeps s

/-- An edge while stopped reaches no rule (R100), so what it writes it writes while running. -/
theorem deliverEdge_frame {i : Instr} (hi : i.isEdge = true) {rule : State → State}
    (hrule : ∀ u, EdgeRuleKeeps u (rule u)) (s : State) : Frame i s (deliverEdge rule s) := by
  rcases deliverEdge_cases rule s with ⟨hrun, h⟩ | ⟨-, h⟩ <;> rw [h]
  · have hkeeps := hrule s.markEdge
    exact {
      toExtends := (markEdge_extends s).trans hkeeps.toExtends
      running := absurd hkeeps.running
      seq := fun _ => .inl ⟨hi, hrun⟩
      lastEdgeTime := fun _ => .inl ⟨hi, hrun⟩
      slot := fun _ => .inl ⟨hi, hrun⟩
      rd := absurd hkeeps.rd
      rdT0 := absurd hkeeps.rdT0
      rdTmo := absurd hkeeps.rdTmo
      draws := absurd hkeeps.draws }
  · exact .refl i s

theorem exec_frame {i : Instr} {s t : State} (h : exec i s = .next t) : Frame i s t := by
  cases i with
  | nop | reserved6 | reserved7 | tick => exact plainEvent_frame (.refl _) h
  | start => exact plainEvent_frame (setRunning_frame (.inl rfl) · true) h
  | stop => exact event_frame stopRule_frame h
  | clear => exact plainEvent_frame clear_frame h
  | read => exact event_frame issueRead_untimed_frame h
  | readT tmo => exact event_frame issueRead_timed_frame h
  | edge _ => exact plainEvent_frame (deliverEdge_frame rfl (classRule_keeps _)) h
  | sync _ => exact plainEvent_frame (deliverEdge_frame rfl syncRule_keeps) h
  | bit0 _ => exact plainEvent_frame (deliverEdge_frame rfl (bitRule_keeps false)) h
  | bit1 _ => exact plainEvent_frame (deliverEdge_frame rfl (bitRule_keeps true)) h
  | glitch _ => exact plainEvent_frame (deliverEdge_frame rfl hunt_keeps) h
  | publish a _ => exact plainEvent_frame (deliverEdge_frame rfl (publishRule_keeps a)) h
  | parseProg _ | parseCtrl _ | parsePace _ | parseAct _ | parseAck _ =>
    cases h
    exact callParse_frame ..
  | reset =>
    cases h
    exact resetRule_frame s

/-- A parse call runs no phase (R167): it adds its result to the outputs and that is all. -/
theorem exec_parse {i : Instr} {s t : State} (hi : i.isParse = true) (h : exec i s = .next t) :
    ∃ r, t = { s with out := s.out ++ [.parsed r] } := by
  cases i with
  | parseProg _ | parseCtrl _ | parsePace _ | parseAct _ | parseAck _ =>
    cases h
    exact ⟨_, rfl⟩
  | _ => cases hi

/-- Settles O40: the clauses of the operation's frame, and a parse call's for itself. -/
theorem onlyTheNamedOperationsWriteEachField : Obligations.OnlyTheNamedOperationsWriteEachField := by
  intro i s t h
  obtain ⟨⟨hcfg, htau, hinput, hout⟩, hrunning, hseq, hedge, hslot, hrd, hrdT0, hrdTmo, hdraws⟩ := exec_frame h
  exact ⟨hrunning, hseq, hedge, hslot, hrd, hrdT0, hrdTmo, (exec_parse · h), hdraws, hcfg, htau, hinput, hout⟩

end Sys2Proof.Machine

namespace Sys2Proof.Machine

/-! ### The counter's test for a timeout -/

/-- Within one period of the counter, the difference of two counter values is the time passed (R110, R151). -/
theorem subMod_counterAt {P : Config} {t0 tau : Nat} (hle : t0 ≤ tau) (hlt : tau - t0 < 2 ^ P.tw) :
    subMod P.tw (counterAt P tau) (counterAt P t0) = tau - t0 := by
  have hrem := Nat.mod_lt t0 (Nat.two_pow_pos P.tw)
  have hdiv := Nat.div_add_mod t0 (2 ^ P.tw)
  have hwrap : tau + (2 ^ P.tw - t0 % 2 ^ P.tw) = tau - t0 + 2 ^ P.tw * (t0 / 2 ^ P.tw + 1) := by
    rw [Nat.mul_add]
    omega
  simp only [subMod, counterAt, Nat.mod_mod]
  rw [Nat.mod_add_mod, hwrap, Nat.add_mul_mod_self_left, Nat.mod_eq_of_lt hlt]

/-- Settles O53: until the deadline the counters' difference is the time since the issue, which reaches `tmo` there. -/
theorem counterTestFirstHoldsAtTheDeadline : Obligations.CounterTestFirstHoldsAtTheDeadline := by
  intro s t0 tmo h hrd hle hdeadline
  obtain ⟨hrdT0, hrdTmo⟩ := h.registers t0 tmo hrd
  have htmo := h.timeout_lt t0 tmo hrd
  have hsince : subMod s.cfg.tw s.now s.rdT0 = s.tau - t0 := by
    rw [hrdT0]
    exact subMod_counterAt hle (by omega)
  have htimed : s.rdTimed = true := by simp [State.rdTimed, hrd]
  simp only [State.timedOutAtPorts, htimed, hrdTmo, hsince, Bool.true_and, decide_eq_true_eq]
  omega

/-! ### The values of reset and the ports of a cycle -/

/-- Settles O1: each field as `State.resetOf` writes it. -/
theorem resetStateHasTheStatedValues : Obligations.ResetStateHasTheStatedValues :=
  fun _ _ => ⟨rfl, rfl, rfl, rfl, rfl, rfl, rfl, rfl⟩

theorem execAll_extends {is : List Instr} {s t : State} (h : execAll is s = .next t) : Extends s t := by
  induction is generalizing s with
  | nil =>
    cases h
    exact .refl _
  | cons i is ih =>
    simp only [execAll] at h
    split at h
    · next u hu => exact (exec_extends hu).trans (ih h)
    · cases h
    · cases h

/-- A cycle moves the time to its own and runs its events, none of which writes the configuration (R7). -/
theorem cycle_cfg {p : PortIn} {s t : State} (h : cycle p s = .next t) : t.cfg = s.cfg := by
  unfold cycle at h
  split at h
  · cases h
  · exact (execAll_extends h).cfg

theorem irqEn_iff (s : State) : s.irqEn = true ↔ s.running = true := Iff.rfl

theorem slotValid_iff (s : State) : s.slotValid = true ↔ s.slot ≠ 0 := bne_iff_ne

theorem rdBusy_iff (s : State) : s.rdBusy = true ↔ s.rd ≠ .none := bne_iff_ne

/-- Settles O59: the status outputs are read off the state after the cycle, and the parses off a configuration the
cycle keeps. -/
theorem statusAndParseOutputsOfACycle : Obligations.StatusAndParseOutputsOfACycle := by
  intro p s t h
  rw [← cycle_cfg h]
  exact ⟨irqEn_iff t, slotValid_iff t, rdBusy_iff t, rfl, rfl, rfl, rfl, rfl⟩

end Sys2Proof.Machine

namespace Sys2Proof.Machine

/-! ### What an operation answers -/

theorem event_of_next {rule : State → Result} {s u : State} (h : rule (expire s) = .next u) :
    event rule s = .next (resolve u) := by
  simp [event, h]

theorem event_of_refused {rule : State → Result} {s : State} {r : Refusal} (h : rule (expire s) = .refused r) :
    event rule s = .refused r := by
  simp [event, h]

theorem event_stopRule_completes (s : State) : ∃ t, event stopRule s = .next t := by
  rcases stopRule_cases (expire s) with ⟨-, h⟩ | ⟨_, _, -, h⟩ <;> exact ⟨_, event_of_next h⟩

theorem issueRead_of_stopped {s : State} (r : PendingRead) (h : s.running = false) :
    issueRead r s = .refused .misuse := by
  simp [issueRead, raise, h]

/-- `expire` does not touch `running`, so a read issued while stopped is misuse whatever was pending (R141). -/
theorem event_issueRead_of_stopped {s : State} (r : PendingRead) (h : s.running = false) :
    event (issueRead r) s = .refused .misuse :=
  event_of_refused (issueRead_of_stopped r ((expire_running s).trans h))

/-- Settles O22: running, every operation completes; stopped, the two reads are misuse, and no other rule refuses. -/
theorem onlyMisusedReadsAreRefused : Obligations.OnlyMisusedReadsAreRefused := by
  intro i s
  by_cases hrun : s.running = true
  · exact .inl (exec_completes i s hrun)
  · have hstopped : s.running = false := by simpa using hrun
    cases i with
    | read => exact .inr ⟨.inl rfl, hstopped, event_issueRead_of_stopped .untimed hstopped⟩
    | readT tmo => exact .inr ⟨.inr ⟨tmo, rfl⟩, hstopped, event_issueRead_of_stopped (.timed s.tau tmo) hstopped⟩
    | stop => exact .inl (event_stopRule_completes s)
    | _ => exact .inl ⟨_, rfl⟩

/-! ### The word a read is given

Of the three parts of an event only `resolve` delivers a word, and that word is what the slot then holds. So the parts
before it are asked for two things: that no word leaves in them, and where the word they leave in the slot comes from. -/

/-- Outputs are added between `s` and `t`, none of them a word. -/
def Wordless (s t : State) : Prop := ∃ l, t.out = s.out ++ l ∧ ∀ u w, Output.done u (.word w) ∉ l

theorem Wordless.of_out_eq {s t : State} (h : t.out = s.out) : Wordless s t :=
  ⟨[], by simp [h], by simp⟩

theorem Wordless.trans {s t u : State} (h : Wordless s t) (h' : Wordless t u) : Wordless s u := by
  obtain ⟨l, hl, hnone⟩ := h
  obtain ⟨l', hl', hnone'⟩ := h'
  refine ⟨l ++ l', by simp [hl', hl], fun v w => ?_⟩
  simp [hnone v w, hnone' v w]

theorem finishRead_noData_wordless (s : State) (t : Nat) : Wordless s (finishRead s t .noData) :=
  ⟨[.done t .noData], rfl, by simp⟩

theorem expire_wordless (s : State) : Wordless s (expire s) := by
  rcases expire_cases s with ⟨h, -⟩ | ⟨_, _, -, -, h⟩ <;> rw [h]
  · exact .of_out_eq rfl
  · exact finishRead_noData_wordless ..

/-- Where no word has left before it, one that has left after `resolve` was the nonzero word of the slot (R58). -/
theorem resolve_delivers {s v : State} {u w : Nat} (hv : Wordless s v)
    (h : Delivered s (resolve v) (.done u (.word w))) :
    w ≠ 0 ∧ u = v.tau ∧ w = v.slot ∧ resolve v = deliverWord v := by
  obtain ⟨l, hl, hnone⟩ := hv
  rcases resolve_cases v with ⟨h', -⟩ | ⟨-, hslot, h'⟩ | ⟨_, _, -, -, -, h'⟩ <;> rw [h'] at h ⊢
  · simp [Delivered, hl, hnone u w] at h
  · obtain ⟨rfl, rfl⟩ : u = v.tau ∧ w = v.slot := by simpa [Delivered, hl, hnone u w] using h
    exact ⟨hslot, rfl, rfl, rfl⟩
  · simp [Delivered, hl, hnone u w] at h

/-- The operation is an edge of the class of the bit `b`, measured or given. -/
def IsBitEdge (i : Instr) (s : State) (b : Bool) : Prop :=
  (∃ level, i = .edge level ∧ classify s.cfg s.interval = bitClass b) ∨ ∃ dt, i = Claims.classOp (bitClass b) dt

/-- Where a word that the operation `i` delivers from `s` may come from: the slot, the operand of a delivered PUBLISH, or
the delivered bit that completes the word (R56). -/
def WordSource (i : Instr) (s : State) (w : Nat) : Prop :=
  w = s.slot ∨ (s.running = true ∧ ∃ dt, i = .publish w dt) ∨
    (s.running = true ∧ s.synced = true ∧ s.idx + 1 = s.cfg.n ∧
      ∃ b, w = (2 * s.acc + b.toNat) % 2 ^ s.cfg.n ∧ IsBitEdge i s b)

theorem expire_interval (s : State) : (expire s).interval = s.interval := by
  simp [State.interval, State.now]

/-- `expire` writes nothing that a word is made of. -/
theorem wordSource_expire (i : Instr) (s : State) (w : Nat) : WordSource i (expire s) w ↔ WordSource i s w := by
  simp [WordSource, IsBitEdge, expire_interval]

/-! The words that the rules of an edge leave in the slot -/

@[simp] theorem bitRule_out (b : Bool) (s : State) : (bitRule b s).out = s.out := by
  rcases bitRule_cases b s with ⟨-, h⟩ | ⟨-, -, h⟩ | ⟨-, -, h⟩ <;> simp [h]

@[simp] theorem classRule_out (c : IntervalClass) (s : State) : (classRule c s).out = s.out := by
  rcases classRule_cases c s with ⟨-, h⟩ | ⟨-, h⟩ | ⟨-, h⟩ | ⟨-, h⟩ <;> simp [h]

theorem deliverEdge_out {rule : State → State} (hrule : ∀ u, (rule u).out = u.out) (s : State) :
    (deliverEdge rule s).out = s.out := by
  rcases deliverEdge_cases rule s with ⟨-, h⟩ | ⟨-, h⟩ <;> simp [h, hrule]

theorem deliverEdge_slot {rule : State → State} (hrule : ∀ u, (rule u).slot = u.slot) (s : State) :
    (deliverEdge rule s).slot = s.slot := by
  rcases deliverEdge_cases rule s with ⟨-, h⟩ | ⟨-, h⟩ <;> simp [h, hrule]

/-- A bit changes the slot only as the last bit of a word (R104, R105, R106). -/
theorem bitRule_slot (b : Bool) (s : State) :
    (bitRule b s).slot = s.slot ∨
      (s.synced = true ∧ s.idx + 1 = s.cfg.n ∧ (bitRule b s).slot = (2 * s.acc + b.toNat) % 2 ^ s.cfg.n) := by
  rcases bitRule_cases b s with ⟨-, h⟩ | ⟨hsynced, hidx, h⟩ | ⟨-, -, h⟩ <;> rw [h]
  · exact .inl rfl
  · exact .inr ⟨hsynced, hidx, shiftIn_eq ..⟩
  · exact .inl rfl

theorem bit_wordSource {i : Instr} {s : State} {b : Bool} (hi : IsBitEdge i s b) :
    WordSource i s (deliverEdge (bitRule b) s).slot := by
  rcases deliverEdge_cases (bitRule b) s with ⟨hrun, h⟩ | ⟨-, h⟩ <;> rw [h]
  · rcases bitRule_slot b s.markEdge with hslot | ⟨hsynced, hidx, hslot⟩
    · exact .inl hslot
    · exact .inr (.inr ⟨hrun, hsynced, hidx, b, hslot, hi⟩)
  · exact .inl rfl

theorem publish_wordSource (a dt : Nat) (s : State) :
    WordSource (.publish a dt) s (deliverEdge (publishRule a) s).slot := by
  rcases deliverEdge_cases (publishRule a) s with ⟨hrun, h⟩ | ⟨-, h⟩ <;> rw [h]
  · exact .inr (.inl ⟨hrun, dt, rfl⟩)
  · exact .inl rfl

theorem edge_wordSource (level : Bool) (s : State) :
    WordSource (.edge level) s (deliverEdge (classRule (classify s.cfg s.interval)) s).slot := by
  cases hclass : classify s.cfg s.interval with
  | sync => exact .inl (deliverEdge_slot syncRule_slot s)
  | bit0 => exact bit_wordSource (b := false) (.inl ⟨level, rfl, hclass⟩)
  | bit1 => exact bit_wordSource (b := true) (.inl ⟨level, rfl, hclass⟩)
  | glitch => exact .inl (deliverEdge_slot glitchRule_slot s)

/-! What the rule of an event hands to `resolve` -/

/-- From `s` to `v` no word leaves, and the word in the slot of `v` is accounted for. -/
structure Prepares (i : Instr) (s v : State) : Prop where
  wordless : Wordless s v
  source   : WordSource i s v.slot

theorem Prepares.of_eq {i : Instr} {s v : State} (hout : v.out = s.out) (hslot : v.slot = s.slot) : Prepares i s v :=
  ⟨.of_out_eq hout, .inl hslot⟩

theorem stopRule_prepares {i : Instr} {s v : State} (h : stopRule s = .next v) : Prepares i s v := by
  rcases stopRule_cases s with ⟨-, h'⟩ | ⟨_, _, -, h'⟩ <;> cases h'.symm.trans h
  · exact .of_eq rfl rfl
  · exact ⟨finishRead_noData_wordless (s.setRunning false) s.tau, .inl rfl⟩

theorem issueRead_prepares {i : Instr} {r : PendingRead} {s v : State} (h : issueRead r s = .next v) :
    Prepares i s v := by
  rcases issueRead_cases r s with ⟨-, -, h'⟩ | ⟨-, -, h'⟩ | ⟨-, h'⟩ <;> cases h'.symm.trans h
  · exact .of_eq (by simp) (by simp)
  · exact .of_eq rfl rfl

theorem deliverEdge_prepares {i : Instr} {rule : State → State} {s : State} (hout : ∀ u, (rule u).out = u.out)
    (hsource : WordSource i s (deliverEdge rule s).slot) : Prepares i s (deliverEdge rule s) :=
  ⟨.of_out_eq (deliverEdge_out hout s), hsource⟩

/-- The delivery of the word `w` at the time `u` by the operation `i` on its way from `s` to `t`. -/
structure WordDelivery (i : Instr) (s t : State) (u w : Nat) : Prop where
  ne_zero : w ≠ 0
  now     : u = t.tau
  slot    : t.slot = 0
  rd      : t.rd = .none
  source  : WordSource i s w

theorem event_delivers {i : Instr} {rule : State → Result} {s t : State} {u w : Nat}
    (hrule : ∀ {v}, rule (expire s) = .next v → Prepares i (expire s) v) (h : event rule s = .next t)
    (hdone : Delivered s t (.done u (.word w))) : WordDelivery i s t u w := by
  obtain ⟨v, hv, rfl⟩ := event_next h
  obtain ⟨hwordless, hsource⟩ := hrule hv
  obtain ⟨hw, hu, rfl, hresolve⟩ := resolve_delivers ((expire_wordless s).trans hwordless) hdone
  rw [hresolve]
  exact ⟨hw, hu, rfl, rfl, (wordSource_expire ..).mp hsource⟩

theorem plainEvent_delivers {i : Instr} {rule : State → State} {s t : State} {u w : Nat}
    (hrule : Prepares i (expire s) (rule (expire s))) (h : plainEvent rule s = .next t)
    (hdone : Delivered s t (.done u (.word w))) : WordDelivery i s t u w := by
  refine event_delivers (rule := fun v => .next (rule v)) ?_ h hdone
  rintro _ ⟨⟩
  exact hrule

theorem exec_delivers {i : Instr} {s t : State} {u w : Nat} (h : exec i s = .next t)
    (hdone : Delivered s t (.done u (.word w))) : WordDelivery i s t u w := by
  cases i with
  | nop | reserved6 | reserved7 | tick => exact plainEvent_delivers (.of_eq rfl rfl) h hdone
  | start => exact plainEvent_delivers (rule := (·.setRunning true)) (.of_eq rfl rfl) h hdone
  | stop => exact event_delivers stopRule_prepares h hdone
  | clear => exact plainEvent_delivers (.of_eq rfl rfl) h hdone
  | read | readT _ => exact event_delivers issueRead_prepares h hdone
  | edge level =>
    have hsource := edge_wordSource level (expire s)
    rw [expire_cfg, expire_interval] at hsource
    exact plainEvent_delivers (deliverEdge_prepares (classRule_out _) hsource) h hdone
  | sync _ =>
    exact plainEvent_delivers (deliverEdge_prepares syncRule_out (.inl (deliverEdge_slot syncRule_slot _))) h hdone
  | bit0 dt =>
    exact plainEvent_delivers (deliverEdge_prepares (bitRule_out false) (bit_wordSource (.inr ⟨dt, rfl⟩))) h hdone
  | bit1 dt =>
    exact plainEvent_delivers (deliverEdge_prepares (bitRule_out true) (bit_wordSource (.inr ⟨dt, rfl⟩))) h hdone
  | glitch _ =>
    exact plainEvent_delivers (deliverEdge_prepares glitchRule_out (.inl (deliverEdge_slot glitchRule_slot _))) h hdone
  | publish a dt =>
    exact plainEvent_delivers (deliverEdge_prepares (publishRule_out · a) (publish_wordSource a dt _)) h hdone
  | parseProg _ | parseCtrl _ | parsePace _ | parseAct _ | parseAck _ | reset =>
    cases h
    simp [Delivered] at hdone

/-- Settles O41: `resolve` delivers what the slot holds, which the operation's rule has left there. -/
theorem deliveredWordEmptiesTheSlot : Obligations.DeliveredWordEmptiesTheSlot := by
  intro i s t w u h hdone
  obtain ⟨hw, hu, hslot, hrd, hsource⟩ := exec_delivers h hdone
  exact ⟨hw, hu.trans (exec_extends h).tau, hslot, hrd, hsource⟩

end Sys2Proof.Machine

namespace Sys2Proof

/-! ### The classes of an interval -/

/-- No interval lies in two of the three windows (spec/30_encoding.md R73), so the order of the classifier's tests does not
matter. -/
theorem Config.windows_disjoint {P : Config} (h : P.wf = true) (dt : Nat) :
    (inWindow P.syncMin P.syncMax dt && inWindow P.b0Min P.b0Max dt) = false ∧
      (inWindow P.syncMin P.syncMax dt && inWindow P.b1Min P.b1Max dt) = false ∧
      (inWindow P.b0Min P.b0Max dt && inWindow P.b1Min P.b1Max dt) = false := by
  obtain ⟨-, -, -, -, hbits, hb0sync, hb1sync⟩ := Config.windows_of_wf h
  simp only [← Bool.not_eq_true, Bool.and_eq_true, inWindow_iff]
  omega

/-- Settles O10: the first window that holds the interval is the only one that does. -/
theorem classifyIsDecidedByTheWindows : Obligations.ClassifyIsDecidedByTheWindows := by
  intro P dt hP
  obtain ⟨hsync0, hsync1, h01⟩ := Config.windows_disjoint hP dt
  simp only [← inWindow_iff]
  obtain ⟨hc, hin⟩ | ⟨hc, hin, -⟩ | ⟨hc, hin, -⟩ | ⟨hc, hout1, hout0, houtS⟩ := classify_cases P dt
  · rw [hin, Bool.true_and] at hsync0 hsync1
    simp [hc, hin, hsync0, hsync1]
  · rw [hin, Bool.and_true] at hsync0
    rw [hin, Bool.true_and] at h01
    simp [hc, hin, hsync0, h01]
  · rw [hin, Bool.and_true] at hsync1 h01
    simp [hc, hin, hsync1, h01]
  · simp [hc, houtS, hout0, hout1]

/-! ### The kinds of a packet word -/

theorem Marker.matches_iff (m : Marker) (w : Nat) : m.matches w = true ↔ w &&& m.mask = m.pattern := beq_iff_eq

theorem mem_kinds (k : Kind) : k ∈ kinds := by cases k <;> decide

theorem decodePacket_of_no_kind {P : Config} {w : Nat} (hw : w < 2 ^ P.n)
    (h : ∀ k, (P.layout.marker k).matches w = false) : decodePacket P w = .error (.noKind w) := by
  have hfind : kinds.find? (fun k => (P.layout.marker k).matches w) = none := by simp [h]
  simp [decodePacket, hw, hfind]

theorem decodePacket_of_find {P : Config} {w : Nat} {k : Kind} (hw : w < 2 ^ P.n)
    (h : kinds.find? (fun k => (P.layout.marker k).matches w) = some k) :
    decodePacket P w = .ok (parseInstr k w) := by
  simp [decodePacket, hw, h]

/-- Of the kinds whose marker the word carries, the decoder takes one (notes/assumptions/11.md). -/
theorem decodePacket_of_some_kind {P : Config} {w : Nat} (hw : w < 2 ^ P.n)
    (h : ∃ k, (P.layout.marker k).matches w = true) :
    ∃ k, (P.layout.marker k).matches w = true ∧ decodePacket P w = .ok (parseInstr k w) := by
  obtain ⟨k', hk'⟩ := h
  have hsome : (kinds.find? (fun k => (P.layout.marker k).matches w)).isSome :=
    List.find?_isSome.mpr ⟨k', mem_kinds k', hk'⟩
  obtain ⟨k, hfind⟩ := Option.isSome_iff_exists.mp hsome
  exact ⟨k, List.find?_some (p := fun k => (P.layout.marker k).matches w) hfind, decodePacket_of_find hw hfind⟩

/-! ### The words of the opcode table -/

/-- A one-byte row is a command code with no argument above it. -/
theorem decodeTableWord_command {nbits w : Nat} (hn : nbits ≤ 8) (hw : w < 8) :
    decodeTableWord nbits w = some (commandInstr w 0) := by
  have hfits : w < 2 ^ (3 + REF.tw) := Laws.EncodingFits.small_command w hw
  simp [decodeTableWord, tableRecord, hn, decode, decodeCommand, hfits, Nat.mod_eq_of_lt hw, Nat.div_eq_of_lt hw,
    Except.toOption]

/-- A wider row is a packet word of the reference layout. -/
theorem decodeTableWord_packet {nbits w : Nat} {k : Kind} (hn : 8 < nbits) (hw : w < 2 ^ REF.n)
    (hk : kinds.find? (fun k => (REF.layout.marker k).matches w) = some k) :
    decodeTableWord nbits w = some (parseInstr k w) := by
  simp [decodeTableWord, tableRecord, Nat.not_le.mpr hn, decode, decodePacket_of_find hw hk, Except.toOption]

/-- Settles O6: the eight command codes, then a word that carries each marker of the reference layout. -/
theorem tableWordsDecodeToTheirRows : Obligations.TableWordsDecodeToTheirRows := by
  have command {w : Nat} (hw : w < 8) := decodeTableWord_command (Nat.le_refl 8) hw
  have packet {w : Nat} {k : Kind} (hw : w < 2 ^ REF.n) (hk) := decodeTableWord_packet (k := k) (by decide : 8 < 16) hw hk
  exact ⟨command (by decide), command (by decide), command (by decide), command (by decide), command (by decide),
    command (by decide), command (by decide), command (by decide), packet (k := .prog) (by decide) (by decide),
    packet (k := .ctrl) (by decide) (by decide), packet (k := .pace) (by decide) (by decide),
    packet (k := .act) (by decide) (by decide), packet (k := .ack) (by decide) (by decide)⟩

end Sys2Proof

namespace Sys2Proof.Machine

/-! ### A step on a packet record -/

/-- What a parse reports on a word without its kind's marker. -/
def absentParse : Kind → ParseResult
  | .prog => .prog none
  | .ctrl => .ctrl none
  | .pace => .pace none
  | .act => .act none
  | .ack => .ack none

theorem parseOf_of_mismatch {P : Config} {k : Kind} {w : Nat} (h : (P.layout.marker k).matches w = false) :
    parseOf P k w = absentParse k := by
  cases k <;> rw [Layout.marker] at h
  case prog => simp [parseOf, parseProg, absentParse, h]
  case ctrl => simp [parseOf, parseCtrl, absentParse, h]
  case pace => simp [parseOf, parsePace, absentParse, h]
  case act => simp [parseOf, parseAct, absentParse, h]
  case ack => simp [parseOf, parseAck, absentParse, h]

theorem undecoded_noKind_of_mismatch {s : State} {w : Nat} (h : ∀ k, (s.cfg.layout.marker k).matches w = false) :
    undecoded (.noKind w) s = .next { s with out := s.out ++ kinds.map (fun k => .parsed (absentParse k)) } := by
  simp only [undecoded, parseOf_of_mismatch (h _)]

theorem step_of_decoded {s : State} {i : Instr} (hwf : s.cfg.wf = true)
    (htime : s.tau ≤ stimulusTime s (nextStimulus s)) (h : decode s.cfg s.seq (nextStimulus s).record = .ok i) :
    step s = exec i (consume s (nextStimulus s)) := by
  simp [step, hwf, Nat.not_lt.mpr htime, h]

theorem consume_of_not_interval {s : State} {x : Stimulus} {rest : List Stimulus} (hin : s.input = x :: rest)
    (h : x.record.format ≠ .interval) : consume s x = { s with tau := x.tau, input := rest } := by
  rw [consume, stimulusTime_of_not_interval s h, hin, List.tail_cons]

/-- Settles O9: the decoder finds no kind and all five parses are absent, or it finds one whose marker the word carries. -/
theorem packetWordIsParsedOrFailsEveryParse : Obligations.PacketWordIsParsedOrFailsEveryParse := by
  intro s t w rest hwf hin htime hw
  have hnext := nextStimulus_cons hin
  have hready : s.tau ≤ stimulusTime s (nextStimulus s) := by
    rw [hnext]
    exact le_stimulusTime htime
  have hconsume : consume s (nextStimulus s) = { s with tau := t, input := rest } := by
    rw [hnext]
    exact consume_of_not_interval hin nofun
  have hdecode : decode s.cfg s.seq (nextStimulus s).record = decodePacket s.cfg w := by
    rw [hnext]
    rfl
  simp only [ne_eq, ← Marker.matches_iff, Bool.not_eq_true]
  refine ⟨fun hnone => ?_, fun hsome => ?_⟩
  · rw [step_of_undecoded hwf hready (hdecode.trans (decodePacket_of_no_kind hw hnone)), hconsume]
    exact undecoded_noKind_of_mismatch hnone
  · obtain ⟨k, hk, hparse⟩ := decodePacket_of_some_kind hw hsome
    refine ⟨k, hk, ?_⟩
    rw [step_of_decoded hwf hready (hdecode.trans hparse), hconsume]

/-! ### The software encoding of a read result -/

/-- A word's software value is never that of no data. -/
theorem toInt_word_nonneg (w : Nat) : 0 ≤ (ReadResult.word w).toInt := Int.natCast_nonneg w

theorem toInt_noData_neg : ReadResult.noData.toInt < 0 := by decide

/-- Settles O56: two words by their values; a word and no data differ in sign. -/
theorem readResultsEncodeApart : Obligations.ReadResultsEncodeApart := by
  intro r r' h
  cases r with
  | word w =>
    cases r' with
    | word w' => exact congrArg ReadResult.word (Int.ofNat.inj h)
    | noData => exact absurd (h ▸ toInt_word_nonneg w) (Int.not_le.mpr toInt_noData_neg)
  | noData =>
    cases r' with
    | word w' => exact absurd (h ▸ toInt_word_nonneg w') (Int.not_le.mpr toInt_noData_neg)
    | noData => rfl

end Sys2Proof.Machine

namespace Sys2Proof.Machine

/-! ### The modular subtraction -/

theorem add_subMod_modEq (k a b : Nat) : b + subMod k a b ≡ a [MOD 2 ^ k] := by
  have hrem := Nat.mod_lt b (Nat.two_pow_pos k)
  calc b + subMod k a b ≡ b % 2 ^ k + (a % 2 ^ k + (2 ^ k - b % 2 ^ k)) [MOD 2 ^ k] :=
        (Nat.mod_modEq b _).symm.add (Nat.mod_modEq _ _)
    _ = a % 2 ^ k + 2 ^ k := by omega
    _ ≡ a [MOD 2 ^ k] := (Nat.add_modulus_modEq_iff.mpr rfl).trans (Nat.mod_modEq a _)

/-- Below the period, `subMod` is the one number that leads from `b` to `a` (R101, R110 (a)). -/
theorem subMod_eq_iff {k a b d : Nat} (hd : d < 2 ^ k) : subMod k a b = d ↔ b + d ≡ a [MOD 2 ^ k] := by
  constructor
  · rintro rfl
    exact add_subMod_modEq k a b
  · intro h
    have hmod : subMod k a b ≡ d [MOD 2 ^ k] :=
      Nat.ModEq.add_left_cancel' b ((add_subMod_modEq k a b).trans h.symm)
    exact hmod.eq_of_lt_of_lt (subMod_lt k a b) hd

theorem counterAt_modEq (P : Config) (tau : Nat) : counterAt P tau ≡ tau [MOD 2 ^ P.tw] := Nat.mod_modEq tau _

/-- Settles O11: the time between, added to the first counter value, leads to the second. -/
theorem measuredIntervalIsTheTimeModuloThePeriod : Obligations.MeasuredIntervalIsTheTimeModuloThePeriod := by
  intro P t1 t2 hle
  have hmod : subMod P.tw (counterAt P t2) (counterAt P t1) = (t2 - t1) % 2 ^ P.tw := by
    refine (subMod_eq_iff (Nat.mod_lt _ (Nat.two_pow_pos _))).mpr ?_
    calc counterAt P t1 + (t2 - t1) % 2 ^ P.tw ≡ t1 + (t2 - t1) [MOD 2 ^ P.tw] :=
          (counterAt_modEq P t1).add (Nat.mod_modEq _ _)
      _ = t2 := Nat.add_sub_cancel' hle
      _ ≡ counterAt P t2 [MOD 2 ^ P.tw] := (counterAt_modEq P t2).symm
  exact ⟨hmod, fun hlt => hmod.trans (Nat.mod_eq_of_lt hlt)⟩

/-! ### The interval an edge measures -/

/-- The interval written with one reduction less, where the reference fits the counter. -/
theorem interval_eq_measured {s : State} (h : s.lastEdgeTime < 2 ^ s.cfg.tw) : s.interval = Claims.measured s := by
  simp only [State.interval, subMod, State.now, counterAt, Claims.measured, Nat.mod_mod, Nat.mod_eq_of_lt h,
    Nat.add_sub_assoc h.le]

theorem interval_eq_iff {s : State} {dt : Nat} (hdt : dt < 2 ^ s.cfg.tw) :
    s.interval = dt ↔ s.lastEdgeTime + dt ≡ s.tau [MOD 2 ^ s.cfg.tw] := by
  have hnow : s.now ≡ s.tau [MOD 2 ^ s.cfg.tw] := counterAt_modEq s.cfg s.tau
  rw [State.interval, subMod_eq_iff hdt]
  exact ⟨fun h => h.trans hnow, fun h => h.trans hnow.symm⟩

theorem edgeTime_modEq (s : State) (t dt : Nat) : edgeTime s t dt ≡ s.lastEdgeTime + dt [MOD 2 ^ s.cfg.tw] :=
  add_subMod_modEq s.cfg.tw (s.lastEdgeTime + dt) t

theorem interval_at_edgeTime {s : State} {dt : Nat} (t : Nat) (hdt : dt < 2 ^ s.cfg.tw) :
    State.interval { s with tau := edgeTime s t dt } = dt :=
  (interval_eq_iff (s := { s with tau := edgeTime s t dt }) hdt).mpr (edgeTime_modEq s t dt).symm

theorem le_edgeTime (s : State) (t dt : Nat) : t ≤ edgeTime s t dt := Nat.le_add_right t _

theorem edgeTime_lt (s : State) (t dt : Nat) : edgeTime s t dt < t + 2 ^ s.cfg.tw :=
  Nat.add_lt_add_left (subMod_lt s.cfg.tw (s.lastEdgeTime + dt) t) t

/-- Times that measure one interval are a whole number of periods apart, and `edgeTime` is less than one from `t`. -/
theorem interval_ne_before_edgeTime {s : State} {t dt u : Nat} (hdt : dt < 2 ^ s.cfg.tw) (htu : t ≤ u)
    (hu : u < edgeTime s t dt) : State.interval { s with tau := u } ≠ dt := by
  intro h
  have hsame : u ≡ edgeTime s t dt [MOD 2 ^ s.cfg.tw] :=
    ((interval_eq_iff (s := { s with tau := u }) hdt).mp h).symm.trans (edgeTime_modEq s t dt).symm
  have hperiod : 2 ^ s.cfg.tw ≤ edgeTime s t dt - u :=
    Nat.le_of_dvd (Nat.sub_pos_of_lt hu) ((Nat.modEq_iff_dvd' hu.le).mp hsame)
  have hnear := edgeTime_lt s t dt
  omega

/-- Settles O33: `edgeTime` measures `dt`, and no time measures it less than a period before. -/
theorem edgeTimeIsTheFirstOfItsInterval : Obligations.EdgeTimeIsTheFirstOfItsInterval := by
  intro s t dt hedge hdt
  have hmeasured (u : Nat) := interval_eq_measured (s := { s with tau := u }) hedge
  refine ⟨le_edgeTime s t dt, ?_, fun u htu hu => ?_⟩
  · rw [← hmeasured]
    exact interval_at_edgeTime t hdt
  · rw [← hmeasured]
    exact interval_ne_before_edgeTime hdt htu hu

/-! ### The phases of an event whose rule does nothing -/

/-- `Claims.settled` writes out by cases what the phases do around a rule that does nothing. -/
theorem resolve_expire (s : State) : resolve (expire s) = Claims.settled s := by
  rcases expire_cases s with ⟨hexpire, hopen⟩ | ⟨t0, tmo, hrd, hpast, hexpire⟩ <;> rw [hexpire, Claims.settled]
  · cases hrd : s.rd with
    | none => exact resolve_of_none s hrd
    | untimed =>
      by_cases hslot : s.slot = 0
      · exact (resolve_of_untimed_empty hrd hslot).trans (if_pos hslot).symm
      · exact (resolve_of_held (by simp [hrd]) hslot).trans (if_neg hslot).symm
    | timed t0 tmo =>
      have hle : s.tau ≤ t0 + tmo := hopen t0 tmo hrd
      simp only [if_neg hle.not_gt]
      by_cases hslot : s.slot = 0
      · have hnow : deadline t0 tmo ≤ s.tau ↔ s.tau = t0 + tmo := ⟨hle.antisymm, Eq.ge⟩
        simp only [resolve_of_timed_empty hrd hslot, if_neg (not_not.mpr hslot), hnow]
        rfl
      · exact (resolve_of_held (by simp [hrd]) hslot).trans (if_pos hslot).symm
  · simp only [hrd]
    exact (resolve_of_none _ rfl).trans (if_pos hpast).symm

theorem settled_of_none {s : State} (h : s.rd = .none) : Claims.settled s = s := by
  simp [Claims.settled, h]

@[simp] theorem settled_cfg (s : State) : (Claims.settled s).cfg = s.cfg := by simp [← resolve_expire]
@[simp] theorem settled_synced (s : State) : (Claims.settled s).synced = s.synced := by simp [← resolve_expire]
@[simp] theorem settled_acc (s : State) : (Claims.settled s).acc = s.acc := by simp [← resolve_expire]
@[simp] theorem settled_idx (s : State) : (Claims.settled s).idx = s.idx := by simp [← resolve_expire]
@[simp] theorem settled_lastEdgeTime (s : State) : (Claims.settled s).lastEdgeTime = s.lastEdgeTime := by
  simp [← resolve_expire]
@[simp] theorem settled_tau (s : State) : (Claims.settled s).tau = s.tau := by simp [← resolve_expire]

/-! ### The operations of an edge

Each is the delivery of its class's rule as an event; EDGE finds the class by measuring. -/

theorem exec_edge (level : Bool) (s : State) :
    exec (.edge level) s = plainEvent (deliverEdge (classRule (classify s.cfg s.interval))) s := rfl

theorem exec_classOp (c : IntervalClass) (dt : Nat) (s : State) :
    exec (Claims.classOp c dt) s = plainEvent (deliverEdge (classRule c)) s := by
  cases c <;> rfl

theorem exec_publish (a dt : Nat) (s : State) :
    exec (.publish a dt) s = plainEvent (deliverEdge (publishRule a)) s := rfl

theorem deliverEdge_of_running {rule : State → State} {s : State} (h : s.running = true) :
    deliverEdge rule s = rule s.markEdge := by
  simp [deliverEdge, h]

theorem deliverEdge_of_stopped {rule : State → State} {s : State} (h : s.running = false) :
    deliverEdge rule s = s := by
  simp [deliverEdge, h]

/-- While running, the rule acts between the phases on the state whose reference is the edge in hand (R16, R101). -/
theorem plainEvent_deliverEdge_of_running {rule : State → State} {s : State} (h : s.running = true) :
    plainEvent (deliverEdge rule) s = .next (resolve (rule (expire s).markEdge)) := by
  rw [plainEvent_eq, deliverEdge_of_running ((expire_running s).trans h)]

/-- While stopped, only the phases act (R16, R100). -/
theorem plainEvent_deliverEdge_of_stopped {rule : State → State} {s : State} (h : s.running = false) :
    plainEvent (deliverEdge rule) s = .next (Claims.settled s) := by
  rw [plainEvent_eq, deliverEdge_of_stopped ((expire_running s).trans h), resolve_expire]

/-- Every operation of the producer's is an edge delivered to some rule (R192). -/
theorem exec_of_isEdge {i : Instr} (hi : i.isEdge = true) (s : State) :
    ∃ rule, exec i s = plainEvent (deliverEdge rule) s := by
  cases i with
  | edge _ | sync _ | bit0 _ | bit1 _ | glitch _ | publish _ _ => exact ⟨_, rfl⟩
  | _ => cases hi

/-- Settles O23: the handler does not reach the rule, and the phases write neither the reference nor the sequence. -/
theorem edgeWhileStoppedIsNotDelivered : Obligations.EdgeWhileStoppedIsNotDelivered := by
  intro i s hi hstopped
  obtain ⟨rule, hexec⟩ := exec_of_isEdge hi s
  rw [plainEvent_deliverEdge_of_stopped hstopped] at hexec
  refine ⟨hexec, settled_lastEdgeTime s, by simp [State.seq], fun hrd => ?_⟩
  rw [hexec, settled_of_none hrd]

@[simp] theorem bitRule_lastEdgeTime (b : Bool) (s : State) : (bitRule b s).lastEdgeTime = s.lastEdgeTime := by
  rcases bitRule_cases b s with ⟨-, h⟩ | ⟨-, -, h⟩ | ⟨-, -, h⟩ <;> simp [h]

@[simp] theorem classRule_lastEdgeTime (c : IntervalClass) (s : State) :
    (classRule c s).lastEdgeTime = s.lastEdgeTime := by
  rcases classRule_cases c s with ⟨-, h⟩ | ⟨-, h⟩ | ⟨-, h⟩ | ⟨-, h⟩ <;> simp [h]

/-- Settles O24: EDGE delivers the rule of the class it measures, and no rule of a class moves the reference again. -/
theorem edgeActsByTheClassOfItsInterval : Obligations.EdgeActsByTheClassOfItsInterval := by
  intro s level hedge
  refine ⟨?_, fun hrun => ⟨_, (exec_edge level s).trans (plainEvent_deliverEdge_of_running hrun), ?_⟩⟩
  · rw [← interval_eq_measured hedge, exec_classOp, exec_edge]
  · simp [State.now, counterAt]

/-! ### The operations of an edge while running -/

theorem resolve_markEdge_expire (s : State) :
    resolve (expire s).markEdge = { Claims.settled s with lastEdgeTime := s.tau % 2 ^ s.cfg.tw } := by
  rw [resolve_markEdge, resolve_expire]
  simp [State.markEdge, State.now, counterAt]

/-- The phases commute with the reference and the sequencing state that an edge writes between them. -/
theorem resolve_setSeq_markEdge_expire (s : State) (b : Bool) (a k : Nat) :
    resolve ((expire s).markEdge.setSeq b a k) =
      { Claims.settled s with lastEdgeTime := s.tau % 2 ^ s.cfg.tw, synced := b, acc := a, idx := k } := by
  rw [resolve_setSeq, resolve_markEdge_expire]
  rfl

/-- A publication is settled as if the word had been in the slot before the event: `expire` does not read the slot. -/
theorem resolve_publishRule_markEdge_expire (s : State) (a : Nat) :
    resolve (publishRule a (expire s).markEdge) =
      { Claims.settled { s with slot := a } with
        lastEdgeTime := s.tau % 2 ^ s.cfg.tw, synced := false, acc := 0, idx := 0 } := by
  have hpublish : publishRule a (expire s).markEdge = (expire (memWrite s a)).markEdge.setSeq false 0 0 := by
    rw [expire_memWrite]
    rfl
  rw [hpublish]
  exact resolve_setSeq_markEdge_expire (memWrite s a) false 0 0

theorem resolve_bitRule_markEdge_expire (b : Bool) (s : State) :
    resolve (bitRule b (expire s).markEdge) = Claims.afterBit b s := by
  rcases bitRule_cases b (expire s).markEdge with ⟨hhunting, h⟩ | ⟨hsynced, hlast, h⟩ | ⟨hsynced, hmore, h⟩ <;>
    rw [h, Claims.afterBit]
  · rw [resolve_markEdge_expire]
    exact (if_pos (by simpa using hhunting)).symm
  · rw [resolve_publishRule_markEdge_expire, shiftIn_eq]
    have hsynced : s.synced = true := by simpa using hsynced
    have hlast : s.idx + 1 = s.cfg.n := by simpa using hlast
    simp [hsynced, hlast]
  · rw [resolve_setSeq_markEdge_expire, shiftIn_eq]
    have hsynced : s.synced = true := by simpa using hsynced
    have hmore : s.idx + 1 ≠ s.cfg.n := by simpa using hmore
    simp [hsynced, hmore]

theorem exec_classOp_of_running (c : IntervalClass) (dt : Nat) {s : State} (h : s.running = true) :
    exec (Claims.classOp c dt) s = .next (resolve (classRule c (expire s).markEdge)) :=
  (exec_classOp c dt s).trans (plainEvent_deliverEdge_of_running h)

/-- Settles O25: SYNC writes the sequencing state alone, which the phases do not read. -/
theorem syncStartsANewWord : Obligations.SyncStartsANewWord := fun s dt hrun =>
  (exec_classOp_of_running .sync dt hrun).trans (congrArg _ (resolve_setSeq_markEdge_expire s true 0 0))

/-- Settles O26, by the three cases of a bit. -/
theorem bitZeroShiftsInAZero : Obligations.BitZeroShiftsInAZero := fun s dt hrun =>
  (exec_classOp_of_running .bit0 dt hrun).trans (congrArg _ (resolve_bitRule_markEdge_expire false s))

/-- Settles O27, by the three cases of a bit. -/
theorem bitOneShiftsInAOne : Obligations.BitOneShiftsInAOne := fun s dt hrun =>
  (exec_classOp_of_running .bit1 dt hrun).trans (congrArg _ (resolve_bitRule_markEdge_expire true s))

/-- Settles O28: the word is in the slot before `resolve` looks there. -/
theorem publishOverwritesTheSlotAndHunts : Obligations.PublishOverwritesTheSlotAndHunts := fun s a dt hrun =>
  ((exec_publish a dt s).trans (plainEvent_deliverEdge_of_running hrun)).trans
    (congrArg _ (resolve_publishRule_markEdge_expire s a))

/-- Settles O29: GLITCH writes the sequencing state alone, which the phases do not read. -/
theorem glitchDropsTheWordInProgress : Obligations.GlitchDropsTheWordInProgress := fun s dt hrun =>
  (exec_classOp_of_running .glitch dt hrun).trans (congrArg _ (resolve_setSeq_markEdge_expire s false 0 0))

end Sys2Proof.Machine

namespace Sys2Proof.Machine

/-! ### The rules of a class, case by case -/

theorem classRule_bitClass (b : Bool) (s : State) : classRule (bitClass b) s = bitRule b s := by
  cases b <;> rfl

theorem bitRule_of_completes {s : State} (b : Bool) (h : s.seq.completes s.cfg = true) :
    bitRule b s = publishRule (shiftIn s.cfg s.acc b) s := by
  obtain ⟨hsynced, hlast⟩ : s.synced = true ∧ s.idx + 1 = s.cfg.n := (completes_iff ..).mp h
  simp [bitRule, hsynced, hlast]

/-- The last bit of a word publishes the accumulator with the bit under it, which fits the slot (R104). -/
theorem bitRule_of_last {s : State} (b : Bool) (hsynced : s.synced = true) (hlast : s.idx + 1 = s.cfg.n)
    (hacc : s.acc < 2 ^ s.idx) : bitRule b s = publishRule (2 * s.acc + b.toNat) s := by
  rw [bitRule_of_completes b ((completes_iff ..).mpr ⟨hsynced, hlast⟩),
    shiftIn_exact s.cfg s.acc s.idx b hacc (by omega)]

/-- An earlier bit goes under the accumulator, which still fits (R104). -/
theorem bitRule_of_more {s : State} (b : Bool) (hsynced : s.synced = true) (hmore : s.idx + 1 < s.cfg.n)
    (hacc : s.acc < 2 ^ s.idx) : bitRule b s = s.setSeq true (2 * s.acc + b.toNat) (s.idx + 1) := by
  simp [bitRule, hsynced, hmore.ne, shiftIn_exact s.cfg s.acc s.idx b hacc (by omega)]

theorem State.Inv.seq_hunting {s : State} (h : s.Inv) (hsynced : s.synced = false) : s.seq = .hunting := by
  obtain ⟨hacc, hidx⟩ := h.hunting hsynced
  simp [State.seq, Seq.hunting, hsynced, hacc, hidx]

theorem hunt_of_hunting {s : State} (h : s.seq = .hunting) : hunt s = s := by
  obtain ⟨hsynced, hidx, hacc⟩ : s.synced = false ∧ s.idx = 0 ∧ s.acc = 0 := by
    simpa [State.seq, Seq.hunting] using h
  ext <;> simp [hsynced, hidx, hacc]

theorem bitRule_of_hunting {s : State} (b : Bool) (h : s.seq = .hunting) : bitRule b s = s :=
  if_neg (by simp [show s.synced = false from congrArg Seq.synced h])

/-- While hunting, only SYNC does anything (R108). -/
theorem classRule_of_hunting {s : State} {c : IntervalClass} (h : s.seq = .hunting) (hc : c ≠ .sync) :
    classRule c s = s := by
  cases c with
  | sync => exact absurd rfl hc
  | bit0 => exact bitRule_of_hunting false h
  | bit1 => exact bitRule_of_hunting true h
  | glitch => exact hunt_of_hunting h

/-! ### An edge with no read pending -/

/-- With no read pending the phases do nothing, and neither does the class's rule issue one. -/
theorem exec_edge_of_idle (level : Bool) {s : State} (hrun : s.running = true) (hidle : s.rd = .none) :
    exec (.edge level) s = .next (classRule (classify s.cfg s.interval) s.markEdge) := by
  have hkept : (classRule (classify s.cfg s.interval) s.markEdge).rd = .none := (classRule_keeps _ _).rd.trans hidle
  rw [exec_edge, plainEvent_deliverEdge_of_running hrun, expire_of_none s hidle, resolve_of_none _ hkept]

theorem exec_clear_hunts {s t : State} (h : exec .clear s = .next t) : t.synced = false ∧ t.idx = 0 := by
  cases h
  simp

/-- The sequencing state is written by edges, CLEAR and RESET alone (R33). -/
theorem exec_seq {i : Instr} {s t : State} (h : exec i s = .next t) (hedge : i.isEdge = false) (hclear : i ≠ .clear)
    (hreset : i ≠ .reset) : t.seq = s.seq := by
  by_contra hne
  rcases (exec_frame h).seq hne with ⟨hi, -⟩ | hi | hi
  · exact absurd hi (by simp [hedge])
  · exact hclear hi
  · exact hreset hi

/-- Settles O30: a row of the table is the class's rule in the row's state; the other operations by their frame. -/
theorem edgeFollowsTheTransitionTable : Obligations.EdgeFollowsTheTransitionTable := by
  refine ⟨fun s level h hrun hidle => ?_, fun s t => exec_clear_hunts, fun s t i hi hexec => ?_⟩
  · have hexec {c : IntervalClass} (hc : classify s.cfg (Claims.measured s) = c) :
        exec (.edge level) s = .next (classRule c s.markEdge) := by
      rw [exec_edge_of_idle level hrun hidle, interval_eq_measured h.edge_lt, hc]
    refine ⟨hexec, fun hsynced hc => ?_, fun b hsynced hmore hc => ?_, fun b hsynced hlast hc => ?_,
      fun _ => hexec⟩
    · rw [hexec rfl, classRule_of_hunting (s := s.markEdge) (h.seq_hunting hsynced) hc]
      rfl
    · rw [hexec hc, classRule_bitClass, bitRule_of_more (s := s.markEdge) b hsynced hmore h.acc_lt, hsynced]
      rfl
    · rw [hexec hc, classRule_bitClass, bitRule_of_last (s := s.markEdge) b hsynced hlast h.acc_lt]
      rfl
  · have hseq : t.seq = s.seq := by
      rcases hi with rfl | rfl | rfl | ⟨tmo, rfl⟩ | rfl <;> exact exec_seq hexec rfl nofun nofun
    exact ⟨congrArg Seq.synced hseq, congrArg Seq.idx hseq⟩

/-! ### A step on an edge -/

/-- The state in which a stimulus of the time `t` acts, with `rest` still to present. -/
def arrive (s : State) (t : Nat) (rest : List Stimulus) : State := { s with tau := t, input := rest }

theorem step_cons {s : State} {x : Stimulus} {i : Instr} {rest : List Stimulus} (hwf : s.cfg.wf = true)
    (hin : s.input = x :: rest) (htime : s.tau ≤ stimulusTime s x) (hdecode : decode s.cfg s.seq x.record = .ok i) :
    step s = exec i (arrive s (stimulusTime s x) rest) := by
  obtain rfl := nextStimulus_cons hin
  rw [step_of_decoded hwf htime hdecode, consume, hin, List.tail_cons, arrive]

theorem decode_edge (P : Config) (q : Seq) : decode P q (encode (.edge false)) = .ok (.edge false) := by
  simp [decode, encode, decodeEvent]

theorem step_edge {s : State} {t : Nat} {rest : List Stimulus} (hwf : s.cfg.wf = true)
    (hin : s.input = ⟨t, encode (.edge false)⟩ :: rest) (hle : s.tau ≤ t) :
    step s = exec (.edge false) (arrive s t rest) :=
  step_cons hwf hin hle (decode_edge s.cfg s.seq)

theorem step_interval {s : State} {t dt : Nat} {i : Instr} {rest : List Stimulus} (hwf : s.cfg.wf = true)
    (hin : s.input = ⟨t, ⟨.interval, dt⟩⟩ :: rest) (hdecode : decodeInterval s.cfg s.seq dt = .ok i) :
    step s = exec i (arrive s (edgeTime s (max t s.tau) dt) rest) :=
  step_cons hwf hin (le_stimulusTime_of_interval s rfl) hdecode

/-- The decoder names a bit that completes the word PUBLISH, which does what the rule of the bit does there (R106). -/
theorem exec_decodeBit (b : Bool) (dt : Nat) (s : State) :
    exec (decodeBit s.cfg s.seq b dt) s = plainEvent (deliverEdge (bitRule b)) s := by
  by_cases hlast : s.seq.completes s.cfg = true
  · have hrule : bitRule b (expire s).markEdge = publishRule (shiftIn s.cfg s.acc b) (expire s).markEdge := by
      rw [bitRule_of_completes b (by simpa [State.seq] using hlast)]
      simp
    rw [decodeBit, if_pos hlast, exec_publish, plainEvent_eq, plainEvent_eq, deliverEdge, deliverEdge, hrule]
    rfl
  · rw [decodeBit, if_neg hlast]
    cases b <;> rfl

theorem exec_of_decodeInterval {s : State} {dt : Nat} {i : Instr} (h : decodeInterval s.cfg s.seq dt = .ok i) :
    exec i s = plainEvent (deliverEdge (classRule (classify s.cfg dt))) s := by
  obtain ⟨-, ⟨hc, rfl⟩ | ⟨hc, rfl⟩ | ⟨hc, rfl⟩ | ⟨hc, rfl⟩⟩ := decodeInterval_ok h <;> rw [hc]
  · exact exec_classOp .sync dt s
  · exact exec_decodeBit false dt s
  · exact exec_decodeBit true dt s
  · exact exec_classOp .glitch dt s

/-- The decoder finds in the record the class that EDGE measures when the edge comes. -/
theorem step_interval_eq_exec_edge {s : State} {t dt : Nat} {rest : List Stimulus} (hwf : s.cfg.wf = true)
    (hdt : dt < 2 ^ s.cfg.tw) (hin : s.input = ⟨t, ⟨.interval, dt⟩⟩ :: rest) :
    step s = exec (.edge false) (arrive s (edgeTime s (max t s.tau) dt) rest) := by
  have hinterval : (arrive s (edgeTime s (max t s.tau) dt) rest).interval = dt :=
    interval_at_edgeTime (max t s.tau) hdt
  obtain ⟨i, hdecode⟩ : ∃ i, decodeInterval s.cfg s.seq dt = .ok i := ⟨_, if_pos hdt⟩
  rw [step_interval hwf hin hdecode, exec_edge, hinterval]
  exact exec_of_decodeInterval (s := arrive s (edgeTime s (max t s.tau) dt) rest) hdecode

/-- Settles O32: both steps are EDGE in the state that has come to that time. -/
theorem intervalRecordIsAnEdgeAtItsTime : Obligations.IntervalRecordIsAnEdgeAtItsTime := by
  intro s t dt rest hwf _ hdt hin
  have hle : s.tau ≤ edgeTime s (max t s.tau) dt := (le_max_right t s.tau).trans (le_edgeTime ..)
  rw [step_interval_eq_exec_edge hwf hdt hin]
  exact (step_edge (s := { s with input := ⟨_, encode (.edge false)⟩ :: rest }) hwf rfl hle).symm

end Sys2Proof.Machine

namespace Sys2Proof.Machine

/-! ### Runs over edges

A running block with no read pending stays one over any edges, so a frame is an induction over its edges with one row of
the transition table each. -/

/-- The block is running with no read pending, and the edges at the times `ts` are presented next. -/
structure Listening (s : State) (ts : List Nat) (rest : List Stimulus) : Prop where
  inv     : s.Inv
  running : s.running = true
  idle    : s.rd = .none
  input   : s.input = edgesAt ts ++ rest
  rising  : Rising s.tau ts

/-- The state in which the rule of the edge at the time `t` acts. -/
def atEdge (s : State) (t : Nat) (rest : List Stimulus) : State := (arrive s t rest).markEdge

section
variable {s : State} {t : Nat} {ts : List Nat} {rest : List Stimulus} {c : IntervalClass}

theorem Listening.step_edge (h : Listening s (t :: ts) rest)
    (hc : classify s.cfg (subMod s.cfg.tw (counterAt s.cfg t) s.lastEdgeTime) = c) :
    step s = .next (classRule c (atEdge s t (edgesAt ts ++ rest))) := by
  obtain ⟨hle, -⟩ := h.rising
  rw [Machine.step_edge h.inv.cfg_wf h.input hle, exec_edge_of_idle (s := arrive s t _) false h.running h.idle, ← hc]
  rfl

theorem Listening.after_edge (h : Listening s (t :: ts) rest)
    (hc : classify s.cfg (subMod s.cfg.tw (counterAt s.cfg t) s.lastEdgeTime) = c) :
    Listening (classRule c (atEdge s t (edgesAt ts ++ rest))) ts rest := by
  have hkeeps := classRule_keeps c (atEdge s t (edgesAt ts ++ rest))
  obtain ⟨-, hrising⟩ := h.rising
  exact {
    inv := stepKeepsTheInvariant _ _ h.inv (h.step_edge hc)
    running := hkeeps.running.trans h.running
    idle := hkeeps.rd.trans h.idle
    input := hkeeps.input
    rising := hkeeps.tau.symm ▸ hrising }

end

/-- `m` steps publish the word `w` at the last of them and not before, deliver nothing and leave `rest` to present. -/
structure PublishesAfter (m : Nat) (w : Nat) (rest : List Stimulus) (s : State) : Prop where
  last   : ∃ t, Host.Core.run Sys2Proof.core m s = .next t ∧ t.slot = w ∧ t.synced = false ∧ t.acc = 0 ∧ t.idx = 0 ∧
    t.rd = .none ∧ t.out = s.out ∧ t.input = rest
  before : ∀ k, k < m → ∃ t, Host.Core.run Sys2Proof.core k s = .next t ∧ t.slot = s.slot

theorem PublishesAfter.of_publishRule {w : Nat} {rest : List Stimulus} {s u : State}
    (hstep : step s = .next (publishRule w u)) (hrd : u.rd = .none) (hout : u.out = s.out) (hin : u.input = rest) :
    PublishesAfter 1 w rest s where
  last := ⟨publishRule w u, run_of_next hstep, rfl, rfl, rfl, rfl, hrd, hout, hin⟩
  before k hk := by
    obtain rfl : k = 0 := by omega
    exact ⟨s, run_zero s, rfl⟩

/-- A step that leaves the slot and the outputs alone may stand in front. -/
theorem PublishesAfter.of_step {m w : Nat} {rest : List Stimulus} {s u : State} (hstep : step s = .next u)
    (hslot : u.slot = s.slot) (hout : u.out = s.out) (h : PublishesAfter m w rest u) :
    PublishesAfter (m + 1) w rest s where
  last := by
    rw [run_of_next hstep, ← hout]
    exact h.last
  before k hk := by
    cases k with
    | zero => exact ⟨s, run_zero s, rfl⟩
    | succ k =>
      rw [run_of_next hstep, ← hslot]
      exact h.before k (Nat.lt_of_succ_lt_succ hk)

/-- From mid-word on, the edges that spell the bits still missing publish the word they complete (R104, R105, R109). -/
theorem Listening.publishes_spelled {s : State} {ts : List Nat} {bs : List Bool} {rest : List Stimulus}
    (h : Listening s ts rest) (hsynced : s.synced = true) (hlen : s.idx + ts.length = s.cfg.n)
    (hspells : Spells s.cfg s.lastEdgeTime ts bs) : PublishesAfter ts.length (wordFrom s.acc bs) rest s := by
  induction ts generalizing s bs with
  | nil => exact absurd hlen h.inv.idx_lt.ne
  | cons t ts ih =>
    cases bs with
    | nil => exact hspells.elim
    | cons b bs =>
      obtain ⟨hclass, hspells⟩ := hspells
      have hstep := h.step_edge hclass
      have hafter := h.after_edge hclass
      rw [classRule_bitClass] at hstep hafter
      by_cases hlast : ts = []
      · subst hlast
        cases bs with
        | cons _ _ => exact hspells.elim
        | nil =>
          rw [bitRule_of_last (s := atEdge s t _) b hsynced hlen h.inv.acc_lt] at hstep
          exact .of_publishRule hstep h.idle rfl rfl
      · have hmore : s.idx + 1 < s.cfg.n := by
          have hpos := List.length_pos_iff.mpr hlast
          rw [List.length_cons] at hlen
          omega
        rw [bitRule_of_more (s := atEdge s t _) b hsynced hmore h.inv.acc_lt] at hstep hafter
        exact .of_step hstep rfl rfl (ih hafter rfl ((Nat.succ_add_eq_add_succ ..).trans hlen) hspells)

/-- Settles O48: SYNC starts a word whatever was in progress, and its bits follow. -/
theorem syncAndBitsPublishTheSpelledWord : Obligations.SyncAndBitsPublishTheSpelledWord := by
  intro s t0 ts bs rest hinv hrun hidle hin hrising hsync hlen hspells
  have h : Listening s (t0 :: ts) rest := ⟨hinv, hrun, hidle, hin, hrising⟩
  have hword := (h.after_edge hsync).publishes_spelled rfl ((Nat.zero_add _).trans hlen) hspells
  obtain ⟨hlast, hbefore⟩ := PublishesAfter.of_step (h.step_edge hsync) rfl rfl hword
  rw [hlen] at hlast hbefore
  exact ⟨hlast, fun k hk => hbefore k (Nat.lt_succ_of_le hk)⟩

/-- While hunting, edges of which none ends a SYNC interval only move the reference (R108, R109). -/
theorem Listening.hunts {s : State} {ts : List Nat} {rest : List Stimulus} (h : Listening s ts rest)
    (hseq : s.seq = .hunting) (hnosync : NoSync s.cfg s.lastEdgeTime ts) :
    ∃ t, Host.Core.run Sys2Proof.core ts.length s = .next t ∧ t.slot = s.slot ∧ t.synced = false ∧ t.out = s.out ∧
      t.input = rest := by
  induction ts generalizing s with
  | nil => exact ⟨s, run_zero s, rfl, congrArg Seq.synced hseq, rfl, h.input⟩
  | cons t ts ih =>
    obtain ⟨hclass, hnosync⟩ := hnosync
    have hstep := h.step_edge rfl
    have hafter := h.after_edge rfl
    rw [classRule_of_hunting (s := atEdge s t _) hseq hclass] at hstep hafter
    rw [List.length_cons, run_of_next hstep]
    exact ih hafter hseq hnosync

/-- Settles O50: the GLITCH leaves the block hunting, and only SYNC ends that. -/
theorem glitchedFrameNeverPublishes : Obligations.GlitchedFrameNeverPublishes := by
  intro s g ts rest hinv hrun hidle hin hrising hglitch hnosync
  have h : Listening s (g :: ts) rest := ⟨hinv, hrun, hidle, hin, hrising⟩
  rw [run_of_next (h.step_edge hglitch)]
  exact (h.after_edge hglitch).hunts rfl hnosync

end Sys2Proof.Machine

namespace Sys2Proof.Machine

/-! ### Another pin, polarity or pin mode

The three fields of the configuration that `Claims.repin` replaces are read by no operation on the state, so each commutes
with the replacement, and an event commutes with it where its rule does (R12, R111). -/

/-- The operation on states acts the same whatever pin, polarity and pin mode the block has. -/
def PinBlind (f : State → State) : Prop :=
  ∀ inv pin mode s, f (Claims.repin inv pin mode s) = Claims.repin inv pin mode (f s)

/-- The same of an operation that may refuse. -/
def PinBlindResult (rule : State → Result) : Prop :=
  ∀ inv pin mode s, rule (Claims.repin inv pin mode s) = Claims.mapNext (Claims.repin inv pin mode) (rule s)

theorem id_pinBlind : PinBlind id := fun _ _ _ _ => rfl

theorem setRunning_pinBlind (b : Bool) : PinBlind (·.setRunning b) := fun _ _ _ _ => rfl

theorem hunt_pinBlind : PinBlind hunt := fun _ _ _ _ => rfl

theorem syncRule_pinBlind : PinBlind syncRule := fun _ _ _ _ => rfl

theorem publishRule_pinBlind (a : Nat) : PinBlind (publishRule a) := fun _ _ _ _ => rfl

theorem resetRule_pinBlind : PinBlind resetRule := fun _ _ _ _ => rfl

theorem callParse_pinBlind (k : Kind) (w : Nat) : PinBlind (callParse k w) := fun _ _ _ _ => rfl

theorem expire_pinBlind : PinBlind expire := by
  intro inv pin mode s
  rw [expire_congr s (Claims.repin inv pin mode s) rfl rfl rfl]
  ext <;> simp [Claims.repin]

theorem resolve_pinBlind : PinBlind resolve := by
  intro inv pin mode s
  rw [resolve_congr s (Claims.repin inv pin mode s) rfl rfl rfl rfl]
  ext <;> simp [Claims.repin]

theorem bitRule_pinBlind (b : Bool) : PinBlind (bitRule b) := by
  intro inv pin mode s
  simp only [bitRule, apply_ite (Claims.repin inv pin mode)]
  rfl

theorem classRule_pinBlind (c : IntervalClass) : PinBlind (classRule c) := by
  cases c with
  | sync => exact syncRule_pinBlind
  | bit0 => exact bitRule_pinBlind false
  | bit1 => exact bitRule_pinBlind true
  | glitch => exact hunt_pinBlind

theorem deliverEdge_pinBlind {rule : State → State} (hrule : PinBlind rule) : PinBlind (deliverEdge rule) := by
  intro inv pin mode s
  rw [deliverEdge, deliverEdge, apply_ite (Claims.repin inv pin mode), ← hrule]
  rfl

theorem stopRule_pinBlind : PinBlindResult stopRule := by
  rintro inv pin mode ⟨_, _, _, _, _, _, _, rd, _, _, _, _, _, _⟩
  cases rd <;> rfl

theorem issueRead_pinBlind (r : PendingRead) : PinBlindResult (issueRead r) := by
  intro inv pin mode s
  rcases issueRead_cases r s with ⟨hrun, hidle, h⟩ | ⟨hrun, hbusy, h⟩ | ⟨hstopped, h⟩ <;> rw [h]
  · rw [issueRead_of_idle (s := Claims.repin inv pin mode s) r hrun hidle]
    cases r <;> rfl
  · simp [issueRead, Claims.repin, Claims.mapNext, hrun, hbusy]
  · exact issueRead_of_stopped (s := Claims.repin inv pin mode s) r hstopped

theorem event_pinBlind {rule : State → Result} (hrule : PinBlindResult rule) : PinBlindResult (event rule) := by
  intro inv pin mode s
  rw [event, event, expire_pinBlind, hrule]
  cases rule (expire s) with
  | next t => exact congrArg Host.Outcome.next (resolve_pinBlind inv pin mode t)
  | fault r => rfl
  | refused r => rfl

theorem plainEvent_pinBlind {rule : State → State} (hrule : PinBlind rule) : PinBlindResult (plainEvent rule) :=
  event_pinBlind (rule := fun u => .next (rule u)) fun inv pin mode s =>
    congrArg Host.Outcome.next (hrule inv pin mode s)

theorem next_pinBlind {f : State → State} (hf : PinBlind f) : PinBlindResult (fun s => .next (f s)) :=
  fun inv pin mode s => congrArg Host.Outcome.next (hf inv pin mode s)

theorem exec_pinBlind (i : Instr) : PinBlindResult (exec i) := by
  cases i with
  | nop | reserved6 | reserved7 | tick => exact plainEvent_pinBlind id_pinBlind
  | start => exact plainEvent_pinBlind (setRunning_pinBlind true)
  | stop => exact event_pinBlind stopRule_pinBlind
  | clear => exact plainEvent_pinBlind hunt_pinBlind
  | read => exact event_pinBlind (issueRead_pinBlind .untimed)
  | readT tmo => exact fun inv pin mode s => event_pinBlind (issueRead_pinBlind (.timed s.tau tmo)) inv pin mode s
  | edge _ =>
    exact fun inv pin mode s => plainEvent_pinBlind (deliverEdge_pinBlind (classRule_pinBlind _)) inv pin mode s
  | sync _ => exact plainEvent_pinBlind (deliverEdge_pinBlind syncRule_pinBlind)
  | bit0 _ => exact plainEvent_pinBlind (deliverEdge_pinBlind (bitRule_pinBlind false))
  | bit1 _ => exact plainEvent_pinBlind (deliverEdge_pinBlind (bitRule_pinBlind true))
  | glitch _ => exact plainEvent_pinBlind (deliverEdge_pinBlind hunt_pinBlind)
  | publish a _ => exact plainEvent_pinBlind (deliverEdge_pinBlind (publishRule_pinBlind a))
  | parseProg w => exact next_pinBlind (callParse_pinBlind .prog w)
  | parseCtrl w => exact next_pinBlind (callParse_pinBlind .ctrl w)
  | parsePace w => exact next_pinBlind (callParse_pinBlind .pace w)
  | parseAct w => exact next_pinBlind (callParse_pinBlind .act w)
  | parseAck w => exact next_pinBlind (callParse_pinBlind .ack w)
  | reset => exact next_pinBlind resetRule_pinBlind

theorem undecoded_pinBlind (e : DecodeError) : PinBlindResult (undecoded e) := by
  intro inv pin mode s
  cases e <;> rfl

/-- Neither the tests of a step nor the decoder read the three fields. -/
theorem step_pinBlind : PinBlindResult step := by
  intro inv pin mode s
  have hconsume : consume (Claims.repin inv pin mode s) (nextStimulus s) =
      Claims.repin inv pin mode (consume s (nextStimulus s)) := rfl
  by_cases hwf : s.cfg.wf = true
  · by_cases hlate : stimulusTime s (nextStimulus s) < s.tau
    · rw [step_of_late hwf hlate]
      exact step_of_late (s := Claims.repin inv pin mode s) hwf hlate
    · have htime := Nat.le_of_not_lt hlate
      cases hdecode : decode s.cfg s.seq (nextStimulus s).record with
      | ok i =>
        rw [step_of_decoded hwf htime hdecode, ← exec_pinBlind, ← hconsume]
        exact step_of_decoded (s := Claims.repin inv pin mode s) hwf htime hdecode
      | error e =>
        rw [step_of_undecoded hwf htime hdecode, ← undecoded_pinBlind, ← hconsume]
        exact step_of_undecoded (s := Claims.repin inv pin mode s) hwf htime hdecode
  · have hwf : s.cfg.wf = false := by simpa using hwf
    rw [step_of_not_wf hwf]
    exact step_of_not_wf (s := Claims.repin inv pin mode s) hwf

/-- Settles O47: every part of a step is blind to the three fields, and EDGE does not read its level. -/
theorem polarityPinAndLevelAreUnobservable : Obligations.PolarityPinAndLevelAreUnobservable :=
  ⟨fun s inv pin mode => step_pinBlind inv pin mode s, fun _ => rfl⟩

end Sys2Proof.Machine

namespace Sys2Proof.Machine

/-! ### The commands that write the state -/

theorem plainEvent_id (s : State) : plainEvent id s = .next (Claims.settled s) := congrArg _ (resolve_expire s)

/-- The phases do not read `running`, so START commutes with them (R130). -/
theorem exec_start (s : State) : exec .start s = .next ((Claims.settled s).setRunning true) := by
  rw [← resolve_expire, ← resolve_setRunning]
  rfl

/-- The phases do not read the sequencing state, so CLEAR commutes with them (R132). -/
theorem exec_clear (s : State) : exec .clear s = .next (hunt (Claims.settled s)) := by
  rw [← resolve_expire, hunt, ← resolve_setSeq]
  rfl

theorem setRunning_of_running {s : State} (h : s.running = true) : s.setRunning true = s := by
  ext <;> simp [h]

/-- Settles O14: START is `setRunning` after the phases, which find nothing to do where no read is pending. -/
theorem startSetsRunningAlone : Obligations.StartSetsRunningAlone := by
  intro s
  refine ⟨exec_start s, fun hrun hidle => ?_⟩
  rw [exec_start, settled_of_none hidle, setRunning_of_running hrun]

/-- Settles O16: CLEAR is `hunt` after the phases. -/
theorem clearDropsOnlyTheWordInProgress : Obligations.ClearDropsOnlyTheWordInProgress := exec_clear

/-- Settles O13: the three have the rule of a TICK, which does nothing between the phases. -/
theorem nopAndReservedCodesAreTicks : Obligations.NopAndReservedCodesAreTicks := fun s =>
  ⟨⟨rfl, rfl, rfl⟩, plainEvent_id s, plainEvent_id s, plainEvent_id s⟩

/-! ### STOP -/

theorem expire_of_not_timed {s : State} (h : ∀ t0 tmo, s.rd ≠ .timed t0 tmo) : expire s = s := by
  rcases expire_cases s with ⟨hexpire, -⟩ | ⟨t0, tmo, hrd, -, -⟩
  · exact hexpire
  · exact absurd hrd (h t0 tmo)

theorem expire_of_open {s : State} {t0 tmo : Nat} (hrd : s.rd = .timed t0 tmo) (h : s.tau ≤ deadline t0 tmo) :
    expire s = s := by
  simp [expire, hrd, Nat.not_lt.mpr h]

theorem stopRule_of_not_timed {s : State} (h : ∀ t0 tmo, s.rd ≠ .timed t0 tmo) :
    stopRule s = .next (s.setRunning false) := by
  rcases stopRule_cases s with ⟨-, hstop⟩ | ⟨t0, tmo, hrd, -⟩
  · exact hstop
  · exact absurd hrd (h t0 tmo)

theorem stopRule_of_timed {s : State} {t0 tmo : Nat} (hrd : s.rd = .timed t0 tmo) :
    stopRule s = .next (finishRead (s.setRunning false) s.tau .noData) := by
  simp [stopRule, raise, hrd]

theorem exec_stop_of_next {s u : State} (hrule : stopRule (expire s) = .next u) (hidle : u.rd = .none) :
    exec .stop s = .next u :=
  (event_of_next hrule).trans (congrArg _ (resolve_of_none u hidle))

/-- A timed read past its deadline is settled by `expire`, an open one by STOP's own rule (R131); either way `resolve`
finds none pending. -/
theorem exec_stop_of_timed {s : State} {t0 tmo : Nat} (hrd : s.rd = .timed t0 tmo) :
    exec .stop s = .next (finishRead (s.setRunning false) (min s.tau (deadline t0 tmo)) .noData) := by
  rcases Nat.lt_or_ge (deadline t0 tmo) s.tau with hpast | hopen
  · rw [Nat.min_eq_right hpast.le]
    refine exec_stop_of_next ?_ rfl
    rw [expire_of_passed hrd hpast]
    exact stopRule_of_not_timed nofun
  · rw [Nat.min_eq_left hopen]
    refine exec_stop_of_next ?_ rfl
    rw [expire_of_open hrd hopen]
    exact stopRule_of_timed hrd

/-- With no timed read to end, STOP's own rule writes `running` alone, which the phases do not read. -/
theorem exec_stop_of_not_timed {s : State} (h : ∀ t0 tmo, s.rd ≠ .timed t0 tmo) :
    exec .stop s = .next ((Claims.settled s).setRunning false) := by
  have hrule : stopRule (expire s) = .next ((expire s).setRunning false) := by
    rw [expire_of_not_timed h]
    exact stopRule_of_not_timed h
  rw [← resolve_expire, ← resolve_setRunning]
  exact event_of_next hrule

/-- Settles O15, by whether a timed read is pending. -/
theorem stopClearsRunningAndEndsATimedRead : Obligations.StopClearsRunningAndEndsATimedRead := fun _ =>
  ⟨fun _ _ => exec_stop_of_timed, exec_stop_of_not_timed⟩

end Sys2Proof.Machine

namespace Sys2Proof

/-! ### The records that decode to START -/

theorem commandInstr_eq_start {cmd arg : Nat} (h : commandInstr cmd arg = .start) : cmd % 8 = 1 := by
  unfold commandInstr at h
  split at h
  case h_2 hcmd => exact hcmd
  all_goals cases h

theorem decodeCommand_eq_start {P : Config} {bits : Nat} (h : decodeCommand P bits = .ok .start) : bits % 8 = 1 := by
  unfold decodeCommand at h
  split at h
  · exact (Nat.mod_mod bits 8).symm.trans (commandInstr_eq_start (Except.ok.inj h))
  · cases h

theorem decodeEvent_ne_start (bits : Nat) : decodeEvent bits ≠ .ok .start := by
  unfold decodeEvent
  split
  · split
    · nofun
    · split <;> nofun
  · nofun

theorem decodeBit_ne_start (P : Config) (q : Seq) (b : Bool) (dt : Nat) : decodeBit P q b dt ≠ .start := by
  unfold decodeBit
  split
  · nofun
  · split <;> nofun

theorem decodeInterval_ne_start (P : Config) (q : Seq) (dt : Nat) : decodeInterval P q dt ≠ .ok .start := by
  intro h
  obtain ⟨-, ⟨-, hi⟩ | ⟨-, hi⟩ | ⟨-, hi⟩ | ⟨-, hi⟩⟩ := decodeInterval_ok h
  · cases hi
  · exact decodeBit_ne_start P q false dt hi.symm
  · exact decodeBit_ne_start P q true dt hi.symm
  · cases hi

theorem decodePacket_ne_start (P : Config) (w : Nat) : decodePacket P w ≠ .ok .start := by
  intro h
  obtain ⟨-, k, -, hk⟩ := decodePacket_ok h
  cases k <;> cases hk

theorem decodeCall_ne_start (P : Config) (bits : Nat) : decodeCall P bits ≠ .ok .start := by
  unfold decodeCall
  split
  · split <;> nofun
  · nofun

/-- START has one code, on the command port (R86). -/
theorem decode_eq_start {P : Config} {q : Seq} {r : Record} (h : decode P q r = .ok .start) :
    r.format = .command ∧ r.bits % 8 = 1 := by
  unfold decode at h
  cases hf : r.format with
  | command => exact ⟨rfl, decodeCommand_eq_start (by simpa only [hf] using h)⟩
  | event => exact absurd (by simpa only [hf] using h) (decodeEvent_ne_start r.bits)
  | interval => exact absurd (by simpa only [hf] using h) (decodeInterval_ne_start P q r.bits)
  | packet => exact absurd (by simpa only [hf] using h) (decodePacket_ne_start P r.bits)
  | call => exact absurd (by simpa only [hf] using h) (decodeCall_ne_start P r.bits)

end Sys2Proof

namespace Sys2Proof.Machine

/-! ### Runs of a stopped block -/

theorem isStart_of_decode_start {P : Config} {q : Seq} {x : Stimulus} (h : decode P q x.record = .ok .start) :
    x.isStart = true := by
  obtain ⟨hformat, hbits⟩ := decode_eq_start h
  simp [Stimulus.isStart, hformat, hbits]

/-- An empty script presents NOPs, which are no START either. -/
theorem nextStimulus_not_start {s : State} (h : ∀ x ∈ s.input, x.isStart = false) :
    (nextStimulus s).isStart = false := by
  cases hin : s.input with
  | nil =>
    simp only [nextStimulus, hin]
    rfl
  | cons x rest =>
    rw [nextStimulus_cons hin]
    exact h x (by simp [hin])

theorem exec_stop_running {s t : State} (h : exec .stop s = .next t) : t.running = false := by
  obtain ⟨u, hu, rfl⟩ := event_next h
  rcases stopRule_cases (expire s) with ⟨-, hstop⟩ | ⟨_, _, -, hstop⟩ <;> cases hstop.symm.trans hu <;> simp

/-- Only START sets `running` (R33, R130). -/
theorem exec_stays_stopped {i : Instr} {s t : State} (h : exec i s = .next t) (hi : i ≠ .start)
    (hstopped : s.running = false) : t.running = false := by
  by_cases hsame : t.running = s.running
  · exact hsame.trans hstopped
  · rcases (exec_frame h).running hsame with rfl | rfl | rfl
    · exact absurd rfl hi
    · exact exec_stop_running h
    · cases h
      rfl

/-- A word comes into the slot by a delivered edge alone, and a stopped block delivers none (R100). -/
theorem exec_slot_of_stopped {i : Instr} {s t : State} (h : exec i s = .next t) (hstopped : s.running = false) :
    t.slot = s.slot ∨ t.slot = 0 := by
  by_cases hsame : t.slot = s.slot
  · exact .inl hsame
  · rcases (exec_frame h).slot hsame with ⟨-, hrun⟩ | rfl | ⟨hempty, -⟩
    · exact absurd hrun (by simp [hstopped])
    · cases h
      exact .inr rfl
    · exact .inr hempty

/-- Settles O57: the stimulus is no START, so the operation is none and its frame keeps the block stopped; the script
only loses its head. -/
theorem stoppedStepPublishesNothing : Obligations.StoppedStepPublishesNothing := by
  intro s t hstopped hscript hstep
  have htail : ∀ x ∈ t.input, x.isStart = false := by
    rw [(step_extends hstep).input]
    exact fun x hx => hscript x (List.mem_of_mem_tail hx)
  obtain ⟨-, -, ⟨i, hdecode, hexec⟩ | ⟨w, -, rfl⟩⟩ := step_cases hstep
  · have hi : i ≠ .start := by
      rintro rfl
      exact absurd (isStart_of_decode_start hdecode) (by simp [nextStimulus_not_start hscript])
    have hslot := exec_slot_of_stopped hexec hstopped
    exact ⟨exec_stays_stopped hexec hi hstopped, htail, hslot⟩
  · exact ⟨hstopped, htail, .inl rfl⟩

/-- Settles O51, by induction on the number of steps: a slot kept or emptied twice is kept or emptied. -/
theorem noPublicationUntilTheNextStart : Obligations.NoPublicationUntilTheNextStart := by
  intro k
  induction k with
  | zero =>
    intro s t hstopped _ hrun
    cases hrun
    exact ⟨hstopped, .inl rfl⟩
  | succ k ih =>
    intro s t hstopped hscript hrun
    obtain ⟨u, hstep, hrest⟩ := run_succ_next hrun
    obtain ⟨hstopped', hscript', hslot⟩ := stoppedStepPublishesNothing s u hstopped hscript hstep
    obtain ⟨hstopped'', hslot'⟩ := ih u t hstopped' hscript' hrest
    refine ⟨hstopped'', hslot'.elim (fun hkept => ?_) .inr⟩
    rwa [hkept]

end Sys2Proof.Machine

namespace Sys2Proof.Machine

/-! ### The phases by the pending read -/

/-- No timed read is past its deadline, so `expire` finds nothing to do (R144). -/
theorem expire_of_none_passed {s : State} (h : ∀ t0 tmo, s.rd = .timed t0 tmo → s.tau ≤ deadline t0 tmo) :
    expire s = s := by
  rcases expire_cases s with ⟨hexpire, -⟩ | ⟨t0, tmo, hrd, hpast, -⟩
  · exact hexpire
  · exact absurd (h t0 tmo hrd) hpast.not_ge

theorem settled_of_held {s : State} (hrd : s.rd ≠ .none)
    (hopen : ∀ t0 tmo, s.rd = .timed t0 tmo → s.tau ≤ deadline t0 tmo) (hslot : s.slot ≠ 0) :
    Claims.settled s = deliverWord s := by
  rw [← resolve_expire, expire_of_none_passed hopen, resolve_of_held hrd hslot]

theorem settled_of_passed {s : State} {t0 tmo : Nat} (hrd : s.rd = .timed t0 tmo) (h : deadline t0 tmo < s.tau) :
    Claims.settled s = finishRead s (deadline t0 tmo) .noData := by
  rw [← resolve_expire, expire_of_passed hrd h, resolve_of_none _ rfl]

theorem settled_of_untimed_empty {s : State} (hrd : s.rd = .untimed) (hslot : s.slot = 0) : Claims.settled s = s := by
  rw [← resolve_expire, expire_of_untimed s hrd, resolve_of_untimed_empty hrd hslot]

/-- With an empty slot a timed read ends once its deadline has come, and with that time (R144, R145). -/
theorem settled_of_timed_empty {s : State} {t0 tmo : Nat} (hrd : s.rd = .timed t0 tmo) (hslot : s.slot = 0) :
    Claims.settled s = if deadline t0 tmo ≤ s.tau then finishRead s (deadline t0 tmo) .noData else s := by
  rcases Nat.lt_or_ge (deadline t0 tmo) s.tau with hpast | hopen
  · rw [settled_of_passed hrd hpast, if_pos hpast.le]
  · rw [← resolve_expire, expire_of_open hrd hopen, resolve_of_timed_empty hrd hslot]
    split
    · next hcome => rw [hcome.antisymm hopen]
    · rfl

/-! ### The commands of the consumer -/

/-- Settles O12: the rule of a TICK does nothing between the phases. -/
theorem tickRunsOnlyThePhases : Obligations.TickRunsOnlyThePhases := plainEvent_id

/-- Settles O21: neither phase sets `running`, and the issue of a read tests it first. -/
theorem readWhileStoppedIsRefused : Obligations.ReadWhileStoppedIsRefused := fun s tmo hstopped =>
  ⟨event_issueRead_of_stopped .untimed hstopped, event_issueRead_of_stopped (.timed s.tau tmo) hstopped⟩

/-- Beside a pending read, the issue of another does what the rule of a TICK does (R143). -/
theorem event_issueRead_of_busy {s : State} (r : PendingRead) (hrun : s.running = true) (hbusy : s.rd ≠ .none)
    (hopen : ∀ t0 tmo, s.rd = .timed t0 tmo → s.tau ≤ deadline t0 tmo) :
    event (issueRead r) s = .next (Claims.settled s) := by
  have hissue : issueRead r (expire s) = .next (expire s) := by
    rw [expire_of_none_passed hopen]
    simp [issueRead, hrun, hbusy]
  rw [event_of_next hissue, resolve_expire]

/-- Settles O19: the read in hand is ignored and only the phases act. -/
theorem secondReadIsIgnored : Obligations.SecondReadIsIgnored := by
  intro s tmo hrun hbusy hopen
  have hignored (r : PendingRead) := event_issueRead_of_busy r hrun hbusy hopen
  have htick := tickRunsOnlyThePhases s
  exact ⟨(hignored .untimed).trans htick.symm, (hignored (.timed s.tau tmo)).trans htick.symm, hignored .untimed⟩

/-- With none pending the read is issued, and `resolve` looks at once whether it can end. -/
theorem event_issueRead_of_idle {s : State} (r : PendingRead) (hrun : s.running = true) (hidle : s.rd = .none) :
    event (issueRead r) s = .next (resolve ((s.loadReadRegs r).setRd r)) := by
  refine event_of_next ?_
  rw [expire_of_none s hidle, issueRead_of_idle r hrun hidle]

/-- Settles O17: the read issued meets a held word or an empty slot. -/
theorem readTakesAHeldWordOrWaits : Obligations.ReadTakesAHeldWordOrWaits := by
  intro s hrun hidle
  refine (event_issueRead_of_idle .untimed hrun hidle).trans (congrArg _ ?_)
  by_cases hslot : s.slot = 0
  · rw [if_pos hslot]
    exact resolve_of_untimed_empty rfl hslot
  · rw [if_neg hslot]
    refine Eq.trans (resolve_of_held nofun hslot) ?_
    ext <;> simp [State.now, counterAt, hidle]

/-- Settles O18: the read issued meets a held word, its own deadline, or neither. -/
theorem timedReadTakesAWordPollsOrWaits : Obligations.TimedReadTakesAWordPollsOrWaits := by
  intro s tmo hrun hidle
  refine (event_issueRead_of_idle (.timed s.tau tmo) hrun hidle).trans (congrArg _ ?_)
  by_cases hslot : s.slot = 0
  · rw [if_neg (not_not.mpr hslot)]
    refine Eq.trans (resolve_of_timed_empty rfl hslot) ?_
    by_cases htmo : tmo = 0
    · rw [if_pos htmo, if_pos (by simp [deadline, htmo])]
      ext <;> simp [State.now, counterAt, hidle]
    · rw [if_neg htmo, if_neg (by simp [deadline]; omega)]
      rfl
  · rw [if_pos hslot]
    refine Eq.trans (resolve_of_held nofun hslot) ?_
    ext <;> simp [State.now, counterAt, hidle]

/-! ### A word completed while a read waits -/

/-- The edge that completes the word `a` leaves what the phases make of `a` in the slot, and hunts (R101, R106). -/
theorem exec_edge_of_last_bit {s : State} {b : Bool} {a : Nat} (level : Bool) (hedge : s.lastEdgeTime < 2 ^ s.cfg.tw)
    (hrun : s.running = true) (hsynced : s.synced = true) (hlast : s.idx + 1 = s.cfg.n)
    (hclass : classify s.cfg (Claims.measured s) = bitClass b) (ha : a = (2 * s.acc + b.toNat) % 2 ^ s.cfg.n) :
    exec (.edge level) s = .next { Claims.settled { s with slot := a } with
      lastEdgeTime := s.tau % 2 ^ s.cfg.tw, synced := false, acc := 0, idx := 0 } := by
  rw [exec_edge, plainEvent_deliverEdge_of_running hrun, interval_eq_measured hedge, hclass, classRule_bitClass,
    resolve_bitRule_markEdge_expire, Claims.afterBit, ha]
  simp [hsynced, hlast]

/-- Settles O31: the phases deliver the word to a read that is still open, and settle one that is past its deadline. -/
theorem wordAtTheDeadlineIsReturned : Obligations.WordAtTheDeadlineIsReturned := by
  intro s level b a hedge hrun hsynced hlast hclass ha hne
  have hexec := exec_edge_of_last_bit level hedge hrun hsynced hlast hclass ha
  have hreturned (hrd : s.rd ≠ .none) (hopen : ∀ t0 tmo, s.rd = .timed t0 tmo → s.tau ≤ deadline t0 tmo) :
      ∃ t, exec (.edge level) s = .next t ∧ t.out = s.out ++ [.done s.tau (.word a)] ∧ t.slot = 0 ∧
        t.rd = .none := by
    rw [settled_of_held (s := { s with slot := a }) hrd hopen hne] at hexec
    exact ⟨_, hexec, rfl, rfl, rfl⟩
  refine ⟨fun hrd => hreturned (by simp [hrd]) (by simp [hrd]), fun t0 tmo hrd => ?_⟩
  refine ⟨fun hopen => ?_, fun hpast => ?_⟩
  · refine hreturned (by simp [hrd]) fun t0' tmo' hrd' => ?_
    cases hrd.symm.trans hrd'
    exact hopen
  · rw [settled_of_passed (s := { s with slot := a }) hrd hpast] at hexec
    exact ⟨_, hexec, rfl, rfl, rfl⟩

end Sys2Proof.Machine

namespace Sys2Proof.Machine

/-! ### A TICK before a later event

Every event begins with `expire`, which does nothing the second time. So a TICK is not seen where all it does is what
that `expire` would have done. -/

theorem expire_expire (s : State) : expire (expire s) = expire s := by
  rcases expire_cases s with ⟨h, -⟩ | ⟨_, _, -, -, h⟩
  · rw [h, h]
  · rw [h, expire_of_none _ rfl]

theorem event_expire (rule : State → Result) (s : State) : event rule (expire s) = event rule s := by
  rw [event, event, expire_expire]

theorem plainEvent_expire (rule : State → State) (s : State) : plainEvent rule (expire s) = plainEvent rule s :=
  event_expire (fun u => .next (rule u)) s

/-- What an operation reads before its first phase, that phase does not write. -/
theorem exec_expire {i : Instr} (hparse : i.isParse = false) (hreset : i ≠ .reset) (s : State) :
    exec i (expire s) = exec i s := by
  cases i with
  | edge level =>
    rw [exec_edge, exec_edge, expire_cfg, expire_interval]
    exact plainEvent_expire _ s
  | readT tmo =>
    simp only [exec, execReadT, expire_tau]
    exact event_expire _ s
  | parseProg _ | parseCtrl _ | parsePace _ | parseAct _ | parseAck _ => cases hparse
  | reset => exact absurd rfl hreset
  | stop | read => exact event_expire _ s
  | start => exact plainEvent_expire (·.setRunning true) s
  | _ => exact plainEvent_expire _ s

/-- Between events no read waits beside a held word, so all that a TICK can do is to end a timed read. -/
theorem State.Inv.settled_cases {s : State} (h : s.Inv) :
    Claims.settled s = s ∨ ∃ t0 tmo, s.rd = .timed t0 tmo ∧ deadline t0 tmo ≤ s.tau ∧
      Claims.settled s = finishRead s (deadline t0 tmo) .noData := by
  cases hrd : s.rd with
  | none => exact .inl (settled_of_none hrd)
  | untimed => exact .inl (settled_of_untimed_empty hrd (h.reading (by simp [hrd])))
  | timed t0 tmo =>
    rw [settled_of_timed_empty hrd (h.reading (by simp [hrd]))]
    split
    · next hcome => exact .inr ⟨t0, tmo, rfl, hcome, rfl⟩
    · exact .inl rfl

/-- A timed read that a TICK ends, a later event would have ended in its `expire`, with the same time. -/
theorem settled_retimed {s : State} {t1 t2 : Nat} (h : s.Inv) (hlt : t1 < t2) :
    { Claims.settled { s with tau := t1 } with tau := t2 } = { s with tau := t2 } ∨
      { Claims.settled { s with tau := t1 } with tau := t2 } = expire { s with tau := t2 } := by
  have hinv : State.Inv { s with tau := t1 } := { h with }
  rcases hinv.settled_cases with hsame | ⟨t0, tmo, hrd, hcome, hended⟩
  · rw [hsame]
    exact .inl rfl
  · rw [hended, expire_of_passed (s := { s with tau := t2 }) hrd (hcome.trans_lt hlt)]
    exact .inr rfl

/-- Settles O46: the event finds the state it would have found, or that state after its own `expire`. -/
theorem insertedTickChangesNothing : Obligations.InsertedTickChangesNothing := by
  intro i s u t1 t2 h hparse hreset hlt htick
  cases (tickRunsOnlyThePhases _).symm.trans htick
  rcases settled_retimed h hlt with hsame | hexpired
  · rw [hsame]
  · rw [hexpired, exec_expire hparse hreset]

end Sys2Proof.Machine

namespace Sys2Proof.Machine

/-! ### What an event does to a pending read

The rule of an event does one of three things to it; the phases around the rule do the rest. -/

/-- The pending read and the outputs after the rule of an event: as they were, or a read issued where none was pending
(R140, R142), or a timed one ended by STOP (R131). -/
inductive ReadEffect (s v : State) : Prop where
  | keeps (hrd : v.rd = s.rd) (hout : v.out = s.out)
  | issues (hidle : s.rd = .none) (hrd : v.rd = .untimed ∨ ∃ tmo, v.rd = .timed s.tau tmo) (hout : v.out = s.out)
  | ends {t0 tmo : Nat} (htimed : s.rd = .timed t0 tmo) (hrd : v.rd = .none)
      (hout : v.out = s.out ++ [.done s.tau .noData])

/-- From `s` to `v` the rule of the event `i` acts; only a delivered edge puts a word in the slot (R33). -/
structure RuleStep (i : Instr) (s v : State) : Prop where
  tau  : v.tau = s.tau
  slot : v.slot ≠ s.slot → i.isEdge = true ∧ s.running = true
  read : ReadEffect s v

theorem RuleStep.of_eq {i : Instr} {s v : State} (htau : v.tau = s.tau) (hslot : v.slot = s.slot) (hrd : v.rd = s.rd)
    (hout : v.out = s.out) : RuleStep i s v :=
  ⟨htau, absurd hslot, .keeps hrd hout⟩

theorem RuleStep.refl (i : Instr) (s : State) : RuleStep i s s := .of_eq rfl rfl rfl rfl

theorem stopRule_ruleStep {i : Instr} {s v : State} (h : stopRule s = .next v) : RuleStep i s v := by
  rcases stopRule_cases s with ⟨-, h'⟩ | ⟨t0, tmo, hrd, h'⟩ <;> cases h'.symm.trans h
  · exact .of_eq rfl rfl rfl rfl
  · exact ⟨rfl, absurd rfl, .ends hrd rfl rfl⟩

theorem issueRead_ruleStep {i : Instr} {r : PendingRead} {s v : State}
    (hr : r = .untimed ∨ ∃ tmo, r = .timed s.tau tmo) (h : issueRead r s = .next v) : RuleStep i s v := by
  rcases issueRead_cases r s with ⟨-, hidle, h'⟩ | ⟨-, -, h'⟩ | ⟨-, h'⟩ <;> cases h'.symm.trans h
  · exact ⟨by simp, absurd (by simp), .issues hidle hr (by simp)⟩
  · exact .refl i s

theorem deliverEdge_ruleStep {i : Instr} (hi : i.isEdge = true) {rule : State → State}
    (hkeeps : ∀ u, EdgeRuleKeeps u (rule u)) (hout : ∀ u, (rule u).out = u.out) (s : State) :
    RuleStep i s (deliverEdge rule s) := by
  rcases deliverEdge_cases rule s with ⟨hrun, h⟩ | ⟨-, h⟩ <;> rw [h]
  · exact ⟨(hkeeps _).tau, fun _ => ⟨hi, hrun⟩, .keeps (hkeeps _).rd (hout _)⟩
  · exact .refl i s

theorem event_ruleStep {i : Instr} {rule : State → Result} {s t : State}
    (hrule : ∀ {v}, rule (expire s) = .next v → RuleStep i (expire s) v) (h : event rule s = .next t) :
    ∃ v, RuleStep i (expire s) v ∧ t = resolve v := by
  obtain ⟨v, hv, rfl⟩ := event_next h
  exact ⟨v, hrule hv, rfl⟩

theorem plainEvent_ruleStep {i : Instr} {rule : State → State} {s t : State}
    (hrule : RuleStep i (expire s) (rule (expire s))) (h : plainEvent rule s = .next t) :
    ∃ v, RuleStep i (expire s) v ∧ t = resolve v := by
  cases h
  exact ⟨_, hrule, rfl⟩

/-- Every event is `expire`, a rule, `resolve` (R16), and this is what the rule may do to the pending read. -/
theorem exec_ruleStep {i : Instr} {s t : State} (hparse : i.isParse = false) (hreset : i ≠ .reset)
    (h : exec i s = .next t) : ∃ v, RuleStep i (expire s) v ∧ t = resolve v := by
  cases i with
  | nop | reserved6 | reserved7 | tick => exact plainEvent_ruleStep (.refl ..) h
  | start => exact plainEvent_ruleStep (rule := (·.setRunning true)) (.of_eq rfl rfl rfl rfl) h
  | stop => exact event_ruleStep stopRule_ruleStep h
  | clear => exact plainEvent_ruleStep (.of_eq rfl rfl rfl rfl) h
  | read => exact event_ruleStep (issueRead_ruleStep (.inl rfl)) h
  | readT tmo => exact event_ruleStep (issueRead_ruleStep (.inr ⟨tmo, by rw [expire_tau]⟩)) h
  | edge _ => exact plainEvent_ruleStep (deliverEdge_ruleStep rfl (classRule_keeps _) (classRule_out _) _) h
  | sync _ => exact plainEvent_ruleStep (deliverEdge_ruleStep rfl syncRule_keeps syncRule_out _) h
  | bit0 _ => exact plainEvent_ruleStep (deliverEdge_ruleStep rfl (bitRule_keeps false) (bitRule_out false) _) h
  | bit1 _ => exact plainEvent_ruleStep (deliverEdge_ruleStep rfl (bitRule_keeps true) (bitRule_out true) _) h
  | glitch _ => exact plainEvent_ruleStep (deliverEdge_ruleStep rfl hunt_keeps hunt_out _) h
  | publish a _ =>
    exact plainEvent_ruleStep (deliverEdge_ruleStep rfl (publishRule_keeps a) (publishRule_out · a) _) h
  | parseProg _ | parseCtrl _ | parsePace _ | parseAct _ | parseAck _ => cases hparse
  | reset => exact absurd rfl hreset

theorem exec_parse_rd {i : Instr} {s t : State} (hi : i.isParse = true) (h : exec i s = .next t) : t.rd = s.rd := by
  obtain ⟨r, rfl⟩ := exec_parse hi h
  rfl

/-! ### The end of an untimed read -/

/-- Settles O42: no rule ends an untimed read, and `resolve` ends it by the word that an edge has put in the slot. -/
theorem untimedReadEndsOnlyByAWord : Obligations.UntimedReadEndsOnlyByAWord := by
  intro i s t h hrd hexec hended
  by_cases hreset : i = .reset
  · exact .inl hreset
  have hparse : i.isParse = false := by
    by_contra hi
    exact hended ((exec_parse_rd (by simpa using hi) hexec).trans hrd)
  have hslot := h.reading (by simp [hrd])
  obtain ⟨v, ⟨hvtau, hvslot, hread⟩, rfl⟩ := exec_ruleStep hparse hreset hexec
  rw [expire_of_untimed s hrd] at hvtau hvslot hread
  cases hread with
  | keeps hvrd hvout =>
    rw [hrd] at hvrd
    rcases resolve_cases v with ⟨hsame, -⟩ | ⟨-, hheld, hdeliver⟩ | ⟨_, _, htimed, -, -, -⟩
    · exact absurd (by rw [hsame, hvrd]) hended
    · obtain ⟨hedge, hrun⟩ := hvslot (by rwa [hslot])
      refine .inr ⟨hedge, hrun, v.slot, hheld, ?_⟩
      rw [hdeliver, deliverWord_out, hvout, hvtau]
    · cases hvrd.symm.trans htimed
  | issues hidle => cases hrd.symm.trans hidle
  | ends htimed => cases hrd.symm.trans htimed

/-! ### The end of a timed read -/

/-- The first thing delivered from `s` to `t` is a read result of a time no later than `d`. -/
def ResultBy (d : Nat) (s t : State) : Prop := ∃ u r l, u ≤ d ∧ t.out = s.out ++ .done u r :: l

theorem ResultBy.of_out {d u : Nat} {r : ReadResult} {s t : State} (hle : u ≤ d)
    (hout : t.out = s.out ++ [.done u r]) : ResultBy d s t :=
  ⟨u, r, [], hle, hout⟩

theorem ResultBy.extend {d : Nat} {s t u : State} (h : ResultBy d s t) (htu : Extends t u) : ResultBy d s u := by
  obtain ⟨v, r, l, hle, hout⟩ := h
  obtain ⟨l', hl'⟩ := htu.out
  exact ⟨v, r, l ++ l', hle, by simp [hl', hout]⟩

/-- `resolve` leaves the pending read as it is or ends it. -/
theorem resolve_rd (s : State) : (resolve s).rd = s.rd ∨ (resolve s).rd = .none := by
  rcases resolve_cases s with ⟨h, -⟩ | ⟨-, -, h⟩ | ⟨_, _, -, -, -, h⟩ <;> simp [h]

/-- Where no read is pending the rule delivers nothing, and a timed read it leaves is one of the present issue. -/
theorem ReadEffect.of_idle {s v : State} {t0 tmo : Nat} (h : ReadEffect s v) (hidle : s.rd = .none)
    (hlt : t0 < s.tau) : v.out = s.out ∧ v.rd ≠ .timed t0 tmo := by
  cases h with
  | keeps hrd hout => exact ⟨hout, by simp [hrd, hidle]⟩
  | issues _ hrd hout =>
    refine ⟨hout, ?_⟩
    rcases hrd with hrd | ⟨tmo', hrd⟩ <;> rw [hrd]
    · nofun
    · rintro ⟨⟩
      exact hlt.false
  | ends htimed => cases hidle.symm.trans htimed

theorem resolve_ended_of_passed {i : Instr} {s v : State} {t0 tmo : Nat} (hpast : deadline t0 tmo < s.tau)
    (h : RuleStep i (finishRead s (deadline t0 tmo) .noData) v) :
    (resolve v).rd ≠ .timed t0 tmo ∧ ResultBy (deadline t0 tmo) s (resolve v) := by
  obtain ⟨hvout, hvrd⟩ := h.read.of_idle (tmo := tmo) rfl ((Nat.le_add_right t0 tmo).trans_lt hpast)
  refine ⟨?_, (ResultBy.of_out le_rfl hvout).extend (resolve_extends v)⟩
  rcases resolve_rd v with h' | h' <;> rw [h']
  · exact hvrd
  · nofun

theorem resolve_waits_or_ended {i : Instr} {s v : State} {t0 tmo : Nat} (hrd : s.rd = .timed t0 tmo)
    (hopen : s.tau ≤ deadline t0 tmo) (h : RuleStep i s v) :
    ((resolve v).rd = .timed t0 tmo ∧ s.tau < deadline t0 tmo) ∨
      ((resolve v).rd ≠ .timed t0 tmo ∧ ResultBy (deadline t0 tmo) s (resolve v)) := by
  cases h.read with
  | keeps hvrd hvout =>
    rw [hrd] at hvrd
    rw [← h.tau] at hopen ⊢
    rcases resolve_cases v with ⟨hsame, hidle | ⟨-, hbefore⟩⟩ | ⟨-, -, hdeliver⟩ | ⟨_, _, -, -, -, hfinish⟩
    · cases hvrd.symm.trans hidle
    · rw [hsame]
      exact .inl ⟨hvrd, hbefore t0 tmo hvrd⟩
    · rw [hdeliver]
      exact .inr ⟨nofun, .of_out hopen (by rw [deliverWord_out, hvout])⟩
    · rw [hfinish]
      exact .inr ⟨nofun, .of_out hopen (by rw [finishRead_out, hvout])⟩
  | issues hidle => cases hrd.symm.trans hidle
  | ends _ hvrd hvout =>
    rw [resolve_of_none v hvrd, hvrd]
    exact .inr ⟨nofun, .of_out hopen hvout⟩

/-- An event leaves a timed read pending before its deadline, or gives it its result by then. -/
theorem exec_of_timed {i : Instr} {s t : State} {t0 tmo : Nat} (hparse : i.isParse = false) (hreset : i ≠ .reset)
    (hrd : s.rd = .timed t0 tmo) (h : exec i s = .next t) :
    (t.rd = .timed t0 tmo ∧ s.tau < deadline t0 tmo) ∨
      (t.rd ≠ .timed t0 tmo ∧ ResultBy (deadline t0 tmo) s t) := by
  obtain ⟨v, hv, rfl⟩ := exec_ruleStep hparse hreset h
  rcases Nat.lt_or_ge (deadline t0 tmo) s.tau with hpast | hopen
  · rw [expire_of_passed hrd hpast] at hv
    exact .inr (resolve_ended_of_passed hpast hv)
  · rw [expire_of_open hrd hopen] at hv
    exact resolve_waits_or_ended hrd hopen hv

/-- Settles O58: of what a step can do, only an event or RESET touches the pending read. -/
theorem timedReadIsOverAtAnyEventFromItsDeadline : Obligations.TimedReadIsOverAtAnyEventFromItsDeadline := by
  intro s t t0 tmo hrd hstep
  obtain ⟨-, -, ⟨i, hdecode, hexec⟩ | ⟨w, hdecode, rfl⟩⟩ := step_cases hstep
  · refine ⟨?_, fun j hj hparse hreset hdeadline => ?_⟩
    · by_cases hreset : i = .reset
      · exact .inr (.inr (hreset ▸ hdecode))
      · cases hparse : i.isParse with
        | true => exact .inl ((exec_parse_rd hparse hexec).trans hrd)
        | false =>
          exact (exec_of_timed (s := consume s _) hparse hreset hrd hexec).imp And.left (fun ⟨_, hby⟩ => .inl hby)
    · obtain rfl : i = j := Except.ok.inj (hdecode.symm.trans hj)
      rw [(exec_extends hexec).tau] at hdeadline
      rcases exec_of_timed (s := consume s _) hparse hreset hrd hexec with ⟨-, hbefore⟩ | hended
      · exact absurd hbefore hdeadline.not_gt
      · exact hended
  · exact ⟨.inl hrd, fun j hj => by cases hdecode.symm.trans hj⟩

/-! ### An idle environment -/

/-- With nothing to present, a step is a TICK one microsecond later (notes/assumptions/6.md). -/
theorem step_of_idle_input {s : State} (hwf : s.cfg.wf = true) (hin : s.input = []) :
    step s = .next (Claims.settled (arrive s (s.tau + 1) [])) := by
  have hnext : nextStimulus s = ⟨s.tau + 1, encode .nop⟩ := by simp [nextStimulus, hin, encode]
  have hdecode : decode s.cfg s.seq (encode .nop) = .ok .nop := by
    simp [decode, encode, decodeCommand, commandInstr]
  have hconsume : consume s ⟨s.tau + 1, encode .nop⟩ = arrive s (s.tau + 1) [] := by
    rw [consume, hin]
    rfl
  rw [step_of_decoded (i := .nop) hwf, hnext, hconsume]
  · exact plainEvent_id _
  · rw [hnext]
    exact Nat.le_succ s.tau
  · rwa [hnext]

theorem step_idle_of_timed {s : State} {t0 tmo : Nat} (hwf : s.cfg.wf = true) (hslot : s.slot = 0)
    (hrd : s.rd = .timed t0 tmo) (hin : s.input = []) :
    step s = .next (if deadline t0 tmo ≤ s.tau + 1 then finishRead (arrive s (s.tau + 1) []) (deadline t0 tmo) .noData
      else arrive s (s.tau + 1) []) :=
  (step_of_idle_input hwf hin).trans
    (congrArg _ (settled_of_timed_empty (s := arrive s (s.tau + 1) []) hrd hslot))

theorem run_idle_until_deadline {t0 tmo : Nat} (m : Nat) {s : State} (hwf : s.cfg.wf = true) (hslot : s.slot = 0)
    (hrd : s.rd = .timed t0 tmo) (hin : s.input = []) (hm : deadline t0 tmo - s.tau = m) :
    ∃ k t, k ≤ m + 1 ∧ Host.Core.run Sys2Proof.core k s = .next t ∧ t.rd = .none ∧
      t.out = s.out ++ [.done (deadline t0 tmo) .noData] := by
  induction m generalizing s with
  | zero =>
    have hstep := step_idle_of_timed hwf hslot hrd hin
    rw [if_pos (by omega)] at hstep
    exact ⟨1, _, le_rfl, run_of_next hstep, rfl, rfl⟩
  | succ m ih =>
    have hstep := step_idle_of_timed hwf hslot hrd hin
    split at hstep
    · exact ⟨1, _, by omega, run_of_next hstep, rfl, rfl⟩
    · have hremain : deadline t0 tmo - (s.tau + 1) = m := by omega
      obtain ⟨k, t, hk, hrun, hdone⟩ := ih (s := arrive s (s.tau + 1) []) hwf hslot hrd rfl hremain
      exact ⟨k + 1, t, by omega, (run_of_next hstep).trans hrun, hdone⟩

/-- Settles O52, by induction on the microseconds that remain. -/
theorem timedReadCompletesByItsDeadline : Obligations.TimedReadCompletesByItsDeadline := fun _ _ _ h hrd hin =>
  run_idle_until_deadline _ h.cfg_wf (h.reading (by simp [hrd])) hrd hin rfl

end Sys2Proof.Machine

namespace Sys2Proof.Machine

/-! ### Runs over edges while a read waits

Until the last edge the slot stays empty and the deadline does not come, so each edge does what it does with no read
pending; the last one's word is handed to the reader by `resolve`. -/

/-- A read that waits on, past the time `t`: untimed, or of a later deadline. -/
def PendingRead.OpenPast (r : PendingRead) (t : Nat) : Prop :=
  r = .untimed ∨ ∃ a m, r = .timed a m ∧ t < deadline a m

theorem PendingRead.OpenPast.ne_none {r : PendingRead} {t : Nat} (h : r.OpenPast t) : r ≠ .none := by
  obtain rfl | ⟨_, _, rfl, -⟩ := h <;> nofun

theorem PendingRead.OpenPast.of_le {r : PendingRead} {t u : Nat} (h : r.OpenPast u) (hle : t ≤ u) : r.OpenPast t :=
  h.imp_right fun ⟨a, m, hr, hlt⟩ => ⟨a, m, hr, hle.trans_lt hlt⟩

theorem expire_of_openPast {s : State} (h : s.rd.OpenPast s.tau) : expire s = s := by
  obtain hrd | ⟨a, m, hrd, hlt⟩ := h
  · exact expire_of_untimed s hrd
  · exact expire_of_open hrd hlt.le

theorem resolve_of_openPast_empty {s : State} (h : s.rd.OpenPast s.tau) (hslot : s.slot = 0) : resolve s = s := by
  obtain hrd | ⟨a, m, hrd, hlt⟩ := h
  · exact resolve_of_untimed_empty hrd hslot
  · rw [resolve_of_timed_empty hrd hslot, if_neg hlt.not_ge]

/-- At a read still open only the edge's rule and `resolve` act. -/
theorem exec_edge_of_openPast (level : Bool) {s : State} (hrun : s.running = true) (hopen : s.rd.OpenPast s.tau) :
    exec (.edge level) s = .next (resolve (classRule (classify s.cfg s.interval) s.markEdge)) := by
  rw [exec_edge, plainEvent_deliverEdge_of_running hrun, expire_of_openPast hopen]

/-- The times of edges rise up to the last of them. -/
theorem Rising.le_getLast {t tl : Nat} {us : List Nat} (h : Rising t us) (hlast : us.getLast? = some tl) :
    t ≤ tl := by
  induction us generalizing t with
  | nil => cases hlast
  | cons u us ih =>
    obtain ⟨hle, hrising⟩ := h
    cases us with
    | nil =>
      cases hlast
      exact hle
    | cons v vs => exact hle.trans (ih hrising (by rwa [List.getLast?_cons_cons] at hlast))

/-- The block is running with a read pending that is open past the time `tl` of the last of the edges presented next. -/
structure Waiting (s : State) (ts : List Nat) (tl : Nat) (rest : List Stimulus) : Prop where
  inv     : s.Inv
  running : s.running = true
  pending : s.rd.OpenPast tl
  input   : s.input = edgesAt ts ++ rest
  rising  : Rising s.tau ts
  last    : ts.getLast? = some tl

section
variable {s : State} {t tl : Nat} {ts : List Nat} {rest : List Stimulus} {c : IntervalClass}

theorem Waiting.slot (h : Waiting s ts tl rest) : s.slot = 0 := h.inv.reading h.pending.ne_none

theorem Waiting.head_le (h : Waiting s (t :: ts) tl rest) : t ≤ tl :=
  Rising.le_getLast (us := t :: ts) ⟨le_rfl, h.rising.2⟩ h.last

theorem Waiting.step_edge (h : Waiting s (t :: ts) tl rest)
    (hc : classify s.cfg (subMod s.cfg.tw (counterAt s.cfg t) s.lastEdgeTime) = c) :
    step s = .next (resolve (classRule c (atEdge s t (edgesAt ts ++ rest)))) := by
  obtain ⟨hle, -⟩ := h.rising
  rw [Machine.step_edge h.inv.cfg_wf h.input hle,
    exec_edge_of_openPast (s := arrive s t _) false h.running (h.pending.of_le h.head_le), ← hc]
  rfl

/-- An edge that leaves the slot empty leaves the reader waiting for the edges that follow. -/
theorem Waiting.after_edge (h : Waiting s (t :: ts) tl rest) (hmore : ts ≠ [])
    (hc : classify s.cfg (subMod s.cfg.tw (counterAt s.cfg t) s.lastEdgeTime) = c)
    (hslot : (classRule c (atEdge s t (edgesAt ts ++ rest))).slot = s.slot) :
    step s = .next (classRule c (atEdge s t (edgesAt ts ++ rest))) ∧
      Waiting (classRule c (atEdge s t (edgesAt ts ++ rest))) ts tl rest := by
  have hkeeps := classRule_keeps c (atEdge s t (edgesAt ts ++ rest))
  have hpending : (classRule c (atEdge s t (edgesAt ts ++ rest))).rd.OpenPast tl := hkeeps.rd.symm ▸ h.pending
  have hstep := h.step_edge hc
  rw [resolve_of_openPast_empty (hkeeps.tau.symm ▸ hpending.of_le h.head_le) (hslot.trans h.slot)] at hstep
  exact ⟨hstep, {
    inv := stepKeepsTheInvariant _ _ h.inv hstep
    running := hkeeps.running.trans h.running
    pending := hpending
    input := hkeeps.input
    rising := hkeeps.tau.symm ▸ h.rising.2
    last := by
      obtain ⟨u, us, rfl⟩ := List.exists_cons_of_ne_nil hmore
      rw [← h.last, List.getLast?_cons_cons] }⟩

/-- The edge that completes a nonzero word hands it to the reader (R145). -/
theorem Waiting.last_edge {b : Bool} (h : Waiting s [t] tl rest) (hsynced : s.synced = true)
    (hlast : s.idx + 1 = s.cfg.n)
    (hclass : classify s.cfg (subMod s.cfg.tw (counterAt s.cfg t) s.lastEdgeTime) = bitClass b)
    (hw : 2 * s.acc + b.toNat ≠ 0) :
    step s = .next (deliverWord (publishRule (2 * s.acc + b.toNat) (atEdge s tl rest))) := by
  obtain rfl : t = tl := Option.some.inj h.last
  have hrule : classRule (bitClass b) (atEdge s t rest) = publishRule (2 * s.acc + b.toNat) (atEdge s t rest) :=
    (classRule_bitClass ..).trans (bitRule_of_last (s := atEdge s t rest) b hsynced hlast h.inv.acc_lt)
  refine (h.step_edge hclass).trans (congrArg _ ?_)
  exact (congrArg resolve hrule).trans (resolve_of_held (s := publishRule _ (atEdge s t rest)) h.pending.ne_none hw)

end

/-- `m` steps deliver the word `w` with the time `u` and nothing else, end the read, and leave `rest` to present. -/
def DeliversAfter (m u w : Nat) (rest : List Stimulus) (s : State) : Prop :=
  ∃ t, Host.Core.run Sys2Proof.core m s = .next t ∧ t.out = s.out ++ [.done u (.word w)] ∧ t.slot = 0 ∧
    t.rd = .none ∧ t.input = rest

theorem DeliversAfter.of_step {m u w : Nat} {rest : List Stimulus} {s v : State} (hstep : step s = .next v)
    (hout : v.out = s.out) (h : DeliversAfter m u w rest v) : DeliversAfter (m + 1) u w rest s := by
  rw [DeliversAfter, run_of_next hstep, ← hout]
  exact h

/-- From mid-word on, the edges that spell the bits still missing give the reader the word they complete (R109,
R145). -/
theorem Waiting.delivers_spelled {s : State} {ts : List Nat} {tl : Nat} {bs : List Bool} {rest : List Stimulus}
    (h : Waiting s ts tl rest) (hsynced : s.synced = true) (hlen : s.idx + ts.length = s.cfg.n)
    (hspells : Spells s.cfg s.lastEdgeTime ts bs) (hw : wordFrom s.acc bs ≠ 0) :
    DeliversAfter ts.length tl (wordFrom s.acc bs) rest s := by
  induction ts generalizing s bs with
  | nil => exact absurd hlen h.inv.idx_lt.ne
  | cons t ts ih =>
    cases bs with
    | nil => exact hspells.elim
    | cons b bs =>
      obtain ⟨hclass, hspells⟩ := hspells
      by_cases hlast : ts = []
      · subst hlast
        cases bs with
        | cons _ _ => exact hspells.elim
        | nil =>
          exact ⟨_, run_of_next (h.last_edge hsynced hlen hclass hw), rfl, rfl, rfl, rfl⟩
      · have hmore : s.idx + 1 < s.cfg.n := by
          have hpos := List.length_pos_iff.mpr hlast
          rw [List.length_cons] at hlen
          omega
        have hrule : classRule (bitClass b) (atEdge s t (edgesAt ts ++ rest)) =
            (atEdge s t (edgesAt ts ++ rest)).setSeq true (2 * s.acc + b.toNat) (s.idx + 1) := by
          rw [classRule_bitClass, bitRule_of_more (s := atEdge s t _) b hsynced hmore h.inv.acc_lt]
          rfl
        obtain ⟨hstep, hafter⟩ := h.after_edge hlast hclass (by rw [hrule]; rfl)
        rw [hrule] at hstep hafter
        exact .of_step hstep rfl (ih hafter rfl ((Nat.succ_add_eq_add_succ ..).trans hlen) hspells hw)

/-- Settles O49: SYNC starts a word under the waiting reader, and its bits follow. -/
theorem waitingReaderGetsTheSpelledWord : Obligations.WaitingReaderGetsTheSpelledWord := by
  intro s t0 tl ts bs rest hinv hrun hpending hin hrising hlast hsync hlen hspells hw
  have hmore : ts ≠ [] := by
    rintro rfl
    cases hlast
  have hlast' : (t0 :: ts).getLast? = some tl := by
    obtain ⟨u, us, rfl⟩ := List.exists_cons_of_ne_nil hmore
    rwa [List.getLast?_cons_cons]
  have h : Waiting s (t0 :: ts) tl rest := ⟨hinv, hrun, hpending, hin, hrising, hlast'⟩
  obtain ⟨hstep, hafter⟩ := h.after_edge hmore hsync rfl
  have hword := hafter.delivers_spelled rfl ((Nat.zero_add _).trans hlen) hspells hw
  rw [← hlen]
  exact hword.of_step hstep rfl

end Sys2Proof.Machine

namespace Sys2Proof

/-! ### The constraints on a kind's layout, as facts (spec/30_encoding.md R77) -/

/-- The fields of a kind as `(shift, width)`, beside `Layout.marker`. -/
def Layout.fields (l : Layout) : Kind → List (Nat × Nat)
  | .prog => l.prog.fields
  | .ctrl => l.ctrl.fields
  | .pace => l.pace.fields
  | .act => l.act.fields
  | .ack => l.ack.fields

theorem Config.kind_of_wf {P : Config} (h : P.wf = true) (k : Kind) :
    kindWf P.n (P.layout.marker k) (P.layout.fields k) = true := by
  simp only [Config.wf, Layout.wf, Bool.and_eq_true] at h
  obtain ⟨-, ⟨⟨⟨hprog, hctrl⟩, hpace⟩, hact⟩, hack⟩ := h
  cases k with
  | prog => exact hprog
  | ctrl => exact hctrl
  | pace => exact hpace
  | act => exact hact
  | ack => exact hack

theorem disjointMasks_iff_pairwise (ms : List Nat) :
    disjointMasks ms = true ↔ ms.Pairwise (fun m m' => m &&& m' = 0) := by
  induction ms with
  | nil => simp [disjointMasks]
  | cons m ms ih => simp [disjointMasks, ih]

/-- What parsing needs of a kind's layout: a pattern inside its mask and not 0, and no bit of two masks. -/
theorem kindWf_masks {n : Nat} {m : Marker} {fs : List (Nat × Nat)} (h : kindWf n m fs = true) :
    m.pattern &&& m.mask = m.pattern ∧ m.pattern ≠ 0 ∧
      (m.mask :: fs.map (fun f => fieldMask f.1 f.2)).Pairwise (fun a b => a &&& b = 0) := by
  simp only [kindWf, Marker.wf, Bool.and_eq_true, bne_iff_ne, beq_iff_eq, disjointMasks_iff_pairwise] at h
  obtain ⟨⟨⟨⟨-, hpattern⟩, hne⟩, -⟩, hdisjoint⟩ := h
  exact ⟨hpattern, hne, hdisjoint⟩

/-! ### Words assembled of pieces in disjoint masks -/

/-- The union of the second components; the first component of a piece is the mask its bits lie in. -/
def assemble : List (Nat × Nat) → Nat
  | [] => 0
  | p :: ps => p.2 ||| assemble ps

/-- Bits inside one mask are outside a disjoint one. -/
theorem and_eq_zero_of_disjoint {x m m' : Nat} (hin : x &&& m = x) (hdisjoint : m &&& m' = 0) : x &&& m' = 0 := by
  rw [← hin, Nat.and_assoc, hdisjoint, Nat.and_zero]

theorem assemble_and_eq_zero {ps : List (Nat × Nat)} {m : Nat} (hin : ∀ p ∈ ps, p.2 &&& p.1 = p.2)
    (hdisjoint : ∀ p ∈ ps, m &&& p.1 = 0) : assemble ps &&& m = 0 := by
  induction ps with
  | nil => exact Nat.zero_and m
  | cons p ps ih =>
    rw [List.forall_mem_cons] at hin hdisjoint
    have hp : p.2 &&& m = 0 := and_eq_zero_of_disjoint hin.1 (by rw [Nat.and_comm, hdisjoint.1])
    rw [assemble, Nat.and_or_distrib_right, hp, ih hin.2 hdisjoint.2, Nat.or_zero]

/-- Masking the assembled word with a piece's mask gives that piece back. -/
theorem assemble_and_mask {ps : List (Nat × Nat)} (hin : ∀ p ∈ ps, p.2 &&& p.1 = p.2)
    (hdisjoint : (ps.map Prod.fst).Pairwise (fun a b => a &&& b = 0)) {p : Nat × Nat} (hp : p ∈ ps) :
    assemble ps &&& p.1 = p.2 := by
  induction ps with
  | nil => cases hp
  | cons q qs ih =>
    rw [List.forall_mem_cons] at hin
    obtain ⟨hq, hqs⟩ := List.pairwise_cons.mp hdisjoint
    rw [List.forall_mem_map] at hq
    rw [assemble, Nat.and_or_distrib_right]
    obtain rfl | hp := List.mem_cons.mp hp
    · rw [hin.1, assemble_and_eq_zero hin.2 hq, Nat.or_zero]
    · rw [and_eq_zero_of_disjoint hin.1 (hq p hp), ih hin.2 hqs hp, Nat.zero_or]

/-! ### The fields of a word -/

theorem field_eq_and_fieldMask (w s width : Nat) : field w s width = (w &&& fieldMask s width) >>> s := by
  rw [field, fieldMask, Nat.shiftRight_and_distrib, Nat.shiftLeft_shiftRight, Nat.and_two_pow_sub_one_eq_mod]

/-- A value of a field's width, at the field's shift, lies in the field's mask. -/
theorem shiftLeft_and_fieldMask {v width : Nat} (h : v < 2 ^ width) (s : Nat) :
    v <<< s &&& fieldMask s width = v <<< s := by
  rw [fieldMask, ← Nat.shiftLeft_and_distrib, Nat.and_two_pow_sub_one_eq_mod, Nat.mod_eq_of_lt h]

/-- R76's `mod` is the one that a bit vector's width makes. -/
theorem fieldBits_eq_ofNat (w s width : Nat) : fieldBits w s width = BitVec.ofNat width (w >>> s) :=
  BitVec.eq_of_toNat_eq (by simp [fieldBits, field])

theorem fieldBool_eq_testBit (w s : Nat) : fieldBool w s = w.testBit s := by
  rw [fieldBool, field, Nat.shiftRight_eq_div_pow, Nat.testBit_eq_decide_div_mod_eq]
  rfl

/-- The field bits of a word whose part under the field's mask is a value at the field's shift. -/
theorem fieldBits_of_and_fieldMask {w s width : Nat} {v : BitVec width}
    (h : w &&& fieldMask s width = v.toNat <<< s) : fieldBits w s width = v := by
  rw [fieldBits, field_eq_and_fieldMask, h, Nat.shiftLeft_shiftRight, BitVec.ofNat_toNat, BitVec.setWidth_eq]

/-- A Boolean field is the field of width 1 (spec/30_encoding.md R92). -/
theorem fieldBits_one_eq_ofBool_iff (w s : Nat) (b : Bool) :
    fieldBits w s 1 = BitVec.ofBool b ↔ fieldBool w s = b := by
  rw [← BitVec.toNat_inj, BitVec.toNat_ofBool, fieldBits_eq_ofNat, BitVec.toNat_ofNat, Nat.pow_one,
    Nat.shiftRight_eq_div_pow, ← Nat.toNat_testBit, fieldBool_eq_testBit]
  cases w.testBit s <;> cases b <;> decide

/-! ### The word of a packet, by its fields -/

/-- A field with a value: its shift, its width, and the value in that width. -/
structure FieldValue where
  shift : Nat
  width : Nat
  value : BitVec width

/-- A Boolean field with a value. -/
def FieldValue.ofBool (shift : Nat) (b : Bool) : FieldValue := ⟨shift, 1, .ofBool b⟩

/-- The marker's pattern under its mask and the values under their fields' masks. -/
def packetPieces (m : Marker) (fs : List FieldValue) : List (Nat × Nat) :=
  (m.mask, m.pattern) :: fs.map (fun f => (fieldMask f.shift f.width, f.value.toNat <<< f.shift))

/-- The word of a packet whose fields have the given values, every ignored bit 0 (spec/30_encoding.md R84). -/
def packetWord (m : Marker) (fs : List FieldValue) : Nat := assemble (packetPieces m fs)

/-- The word has the kind's marker and the given values in its fields. -/
structure Carries (w : Nat) (m : Marker) (fs : List FieldValue) : Prop where
  marker : m.matches w = true
  fields : ∀ f ∈ fs, fieldBits w f.shift f.width = f.value

/-- The masks of a well-formed kind are disjoint, so each piece of the word can be read back. -/
theorem packetWord_carries {n : Nat} {m : Marker} {fs : List FieldValue}
    (h : kindWf n m (fs.map fun f => (f.shift, f.width)) = true) : Carries (packetWord m fs) m fs := by
  obtain ⟨hpattern, -, hdisjoint⟩ := kindWf_masks h
  have hin : ∀ p ∈ packetPieces m fs, p.2 &&& p.1 = p.2 :=
    List.forall_mem_cons.mpr ⟨hpattern,
      List.forall_mem_map.mpr fun f _ => shiftLeft_and_fieldMask f.value.isLt f.shift⟩
  have hmasks : ((packetPieces m fs).map Prod.fst).Pairwise (fun a b => a &&& b = 0) := by
    simpa only [packetPieces, List.map_cons, List.map_map, Function.comp_def] using hdisjoint
  have hread : ∀ p ∈ packetPieces m fs, packetWord m fs &&& p.1 = p.2 := fun _ => assemble_and_mask hin hmasks
  obtain ⟨hmarker, hfields⟩ := List.forall_mem_cons.mp hread
  exact ⟨(m.matches_iff _).mpr hmarker, fun f hf =>
    fieldBits_of_and_fieldMask (hfields _ (List.mem_map_of_mem hf))⟩

/-! ### The fields of each kind with a record's values -/

/-- The fields of a Programming packet with the record's values; likewise for the other kinds. -/
def Programming.fieldValues (l : ProgLayout) (r : Programming) : List FieldValue :=
  [⟨l.command, 5, r.command⟩, ⟨l.value, 4, r.value⟩, ⟨l.address, 3, r.address⟩]
@[inherit_doc Programming.fieldValues]
def Controller.fieldValues (l : CtrlLayout) (r : Controller) : List FieldValue :=
  [⟨l.address, 3, r.address⟩, .ofBool l.laneChange r.laneChange, ⟨l.throttle, 4, r.throttle⟩,
    .ofBool l.fuelMode r.fuelMode]
@[inherit_doc Programming.fieldValues]
def PaceCar.fieldValues (l : PaceLayout) (r : PaceCar) : List FieldValue :=
  [.ofBool l.stopped r.stopped, .ofBool l.returnToPit r.returnToPit, .ofBool l.active r.active,
    .ofBool l.fuelMode r.fuelMode]
@[inherit_doc Programming.fieldValues]
def Activity.fieldValues (l : ActLayout) (r : Activity) : List FieldValue :=
  [⟨l.controllerMask, 6, r.controllerMask⟩, .ofBool l.anyActive r.anyActive]
@[inherit_doc Programming.fieldValues]
def Acknowledge.fieldValues (l : AckLayout) (r : Acknowledge) : List FieldValue := [⟨l.slotMask, 8, r.slotMask⟩]

theorem encodeProg_eq_packetWord (P : Config) (r : Programming) :
    encodeProg P r = packetWord P.layout.prog.marker (r.fieldValues P.layout.prog) := by
  simp [encodeProg, packetWord, packetPieces, assemble, Programming.fieldValues, Nat.or_assoc]

theorem encodeCtrl_eq_packetWord (P : Config) (r : Controller) :
    encodeCtrl P r = packetWord P.layout.ctrl.marker (r.fieldValues P.layout.ctrl) := by
  simp [encodeCtrl, packetWord, packetPieces, assemble, Controller.fieldValues, FieldValue.ofBool, Nat.or_assoc]

theorem encodePace_eq_packetWord (P : Config) (r : PaceCar) :
    encodePace P r = packetWord P.layout.pace.marker (r.fieldValues P.layout.pace) := by
  simp [encodePace, packetWord, packetPieces, assemble, PaceCar.fieldValues, FieldValue.ofBool, Nat.or_assoc]

theorem encodeAct_eq_packetWord (P : Config) (r : Activity) :
    encodeAct P r = packetWord P.layout.act.marker (r.fieldValues P.layout.act) := by
  simp [encodeAct, packetWord, packetPieces, assemble, Activity.fieldValues, FieldValue.ofBool, Nat.or_assoc]

theorem encodeAck_eq_packetWord (P : Config) (r : Acknowledge) :
    encodeAck P r = packetWord P.layout.ack.marker (r.fieldValues P.layout.ack) := by
  simp [encodeAck, packetWord, packetPieces, assemble, Acknowledge.fieldValues]

end Sys2Proof

namespace Sys2Proof.Machine

/-! ### What a parse returns -/

theorem parseOf_success_iff (P : Config) (k : Kind) (w : Nat) :
    (parseOf P k w).success = true ↔ w &&& (P.layout.marker k).mask = (P.layout.marker k).pattern := by
  rw [← Marker.matches_iff]
  cases k <;> exact Option.isSome_ite

/-- Settles O36: success is the test of the marker bits. -/
theorem parseSucceedsExactlyOnTheMarker : Obligations.ParseSucceedsExactlyOnTheMarker :=
  parseOf_success_iff

/-- R166: the pattern of a kind is not 0, so word 0 does not carry it. -/
theorem parseOf_zero_fails {P : Config} (hP : P.wf = true) (k : Kind) : (parseOf P k 0).success = false := by
  obtain ⟨-, hpattern, -⟩ := kindWf_masks (P.kind_of_wf hP k)
  rw [← Bool.not_eq_true, parseOf_success_iff, Nat.zero_and]
  exact hpattern.symm

/-- Settles O37: a parse that succeeds is not the one of word 0. -/
theorem wordZeroFailsEveryParse : Obligations.WordZeroFailsEveryParse := by
  intro P k hP
  refine ⟨parseOf_zero_fails hP k, ?_⟩
  rintro w hw rfl
  exact Bool.false_ne_true ((parseOf_zero_fails hP k).symm.trans hw)

theorem parseProg_eq (P : Config) (w : Nat) :
    parseProg P w = if w &&& P.layout.prog.marker.mask = P.layout.prog.marker.pattern then
      some ⟨.ofNat 5 (w >>> P.layout.prog.command), .ofNat 4 (w >>> P.layout.prog.value),
        .ofNat 3 (w >>> P.layout.prog.address)⟩ else none := by
  simp only [parseProg, Marker.matches_iff, fieldBits_eq_ofNat]

theorem parseCtrl_eq (P : Config) (w : Nat) :
    parseCtrl P w = if w &&& P.layout.ctrl.marker.mask = P.layout.ctrl.marker.pattern then
      some ⟨.ofNat 3 (w >>> P.layout.ctrl.address), w.testBit P.layout.ctrl.laneChange,
        .ofNat 4 (w >>> P.layout.ctrl.throttle), w.testBit P.layout.ctrl.fuelMode⟩ else none := by
  simp only [parseCtrl, Marker.matches_iff, fieldBits_eq_ofNat, fieldBool_eq_testBit]

theorem parsePace_eq (P : Config) (w : Nat) :
    parsePace P w = if w &&& P.layout.pace.marker.mask = P.layout.pace.marker.pattern then
      some ⟨w.testBit P.layout.pace.stopped, w.testBit P.layout.pace.returnToPit,
        w.testBit P.layout.pace.active, w.testBit P.layout.pace.fuelMode⟩ else none := by
  simp only [parsePace, Marker.matches_iff, fieldBool_eq_testBit]

theorem parseAct_eq (P : Config) (w : Nat) :
    parseAct P w = if w &&& P.layout.act.marker.mask = P.layout.act.marker.pattern then
      some ⟨.ofNat 6 (w >>> P.layout.act.controllerMask), w.testBit P.layout.act.anyActive⟩ else none := by
  simp only [parseAct, Marker.matches_iff, fieldBits_eq_ofNat, fieldBool_eq_testBit]

theorem parseAck_eq (P : Config) (w : Nat) :
    parseAck P w = if w &&& P.layout.ack.marker.mask = P.layout.ack.marker.pattern then
      some ⟨.ofNat 8 (w >>> P.layout.ack.slotMask)⟩ else none := by
  simp only [parseAck, Marker.matches_iff, fieldBits_eq_ofNat]

/-- A parse call runs no phase (R167): its result is appended to the outputs. -/
theorem exec_parseInstr (k : Kind) (w : Nat) (s : State) :
    exec (parseInstr k w) s = .next { s with out := s.out ++ [.parsed (parseOf s.cfg k w)] } := by
  cases k <;> rfl

/-- Settles O35: the one effect of a parse call, with each kind's result written out. -/
theorem parseCallsReturnTheFields : Obligations.ParseCallsReturnTheFields := by
  intro s w
  rw [← parseProg_eq, ← parseCtrl_eq, ← parsePace_eq, ← parseAct_eq, ← parseAck_eq]
  exact ⟨exec_parseInstr .prog w s, exec_parseInstr .ctrl w s, exec_parseInstr .pace w s, exec_parseInstr .act w s,
    exec_parseInstr .ack w s⟩

/-! ### The parse of an encoded record -/

theorem parseProg_of_carries {P : Config} {w : Nat} {r : Programming}
    (h : Carries w P.layout.prog.marker (r.fieldValues P.layout.prog)) : parseProg P w = some r := by
  obtain ⟨hmarker, hfields⟩ := h
  simp only [Programming.fieldValues, List.forall_mem_cons] at hfields
  obtain ⟨hcommand, hvalue, haddress, -⟩ := hfields
  simp only [parseProg, hmarker, hcommand, hvalue, haddress, if_true]

theorem parseCtrl_of_carries {P : Config} {w : Nat} {r : Controller}
    (h : Carries w P.layout.ctrl.marker (r.fieldValues P.layout.ctrl)) : parseCtrl P w = some r := by
  obtain ⟨hmarker, hfields⟩ := h
  simp only [Controller.fieldValues, FieldValue.ofBool, List.forall_mem_cons, fieldBits_one_eq_ofBool_iff] at hfields
  obtain ⟨haddress, hlane, hthrottle, hfuel, -⟩ := hfields
  simp only [parseCtrl, hmarker, haddress, hlane, hthrottle, hfuel, if_true]

theorem parsePace_of_carries {P : Config} {w : Nat} {r : PaceCar}
    (h : Carries w P.layout.pace.marker (r.fieldValues P.layout.pace)) : parsePace P w = some r := by
  obtain ⟨hmarker, hfields⟩ := h
  simp only [PaceCar.fieldValues, FieldValue.ofBool, List.forall_mem_cons, fieldBits_one_eq_ofBool_iff] at hfields
  obtain ⟨hstopped, hreturn, hactive, hfuel, -⟩ := hfields
  simp only [parsePace, hmarker, hstopped, hreturn, hactive, hfuel, if_true]

theorem parseAct_of_carries {P : Config} {w : Nat} {r : Activity}
    (h : Carries w P.layout.act.marker (r.fieldValues P.layout.act)) : parseAct P w = some r := by
  obtain ⟨hmarker, hfields⟩ := h
  simp only [Activity.fieldValues, FieldValue.ofBool, List.forall_mem_cons, fieldBits_one_eq_ofBool_iff] at hfields
  obtain ⟨hmask, hany, -⟩ := hfields
  simp only [parseAct, hmarker, hmask, hany, if_true]

theorem parseAck_of_carries {P : Config} {w : Nat} {r : Acknowledge}
    (h : Carries w P.layout.ack.marker (r.fieldValues P.layout.ack)) : parseAck P w = some r := by
  obtain ⟨hmarker, hfields⟩ := h
  simp only [Acknowledge.fieldValues, List.forall_mem_cons] at hfields
  obtain ⟨hslots, -⟩ := hfields
  simp only [parseAck, hmarker, hslots, if_true]

/-- Settles O38: each encoding is a packet's word, which carries its marker and its fields. -/
theorem parseOfEncodeIsTheRecord : Obligations.ParseOfEncodeIsTheRecord := by
  intro P hP
  have hkind := P.kind_of_wf hP
  simp only [encodeProg_eq_packetWord, encodeCtrl_eq_packetWord, encodePace_eq_packetWord, encodeAct_eq_packetWord,
    encodeAck_eq_packetWord]
  exact ⟨fun _ => parseProg_of_carries (packetWord_carries (hkind .prog)),
    fun _ => parseCtrl_of_carries (packetWord_carries (hkind .ctrl)),
    fun _ => parsePace_of_carries (packetWord_carries (hkind .pace)),
    fun _ => parseAct_of_carries (packetWord_carries (hkind .act)),
    fun _ => parseAck_of_carries (packetWord_carries (hkind .ack))⟩

/-! ### Two kinds on one word -/

/-- `REF` with the marker of Acknowledge in the bit above its field alone, a bit that a Programming packet has in its
`command`. -/
def refOverlapping : Config :=
  { REF with layout := { refLayout with ack := { marker := ⟨0x0100, 0x0100⟩, slotMask := 0 } } }

/-- In `REF` the five markers share the mask, so a word under two kinds has two patterns in the same bits. -/
theorem ref_kind_unique {k k' : Kind} {w : Nat} (h : w &&& (REF.layout.marker k).mask = (REF.layout.marker k).pattern)
    (h' : w &&& (REF.layout.marker k').mask = (REF.layout.marker k').pattern) : k = k' := by
  have hmask : ∀ k ∈ kinds, (REF.layout.marker k).mask = 0xF000 := by decide
  have hpattern : ∀ k ∈ kinds, ∀ k' ∈ kinds,
      (REF.layout.marker k).pattern = (REF.layout.marker k').pattern → k = k' := by decide
  rw [hmask _ (mem_kinds _)] at h h'
  exact hpattern k (mem_kinds k) k' (mem_kinds k') (h.symm.trans h')

/-- Settles O39: `0x1100` is a Programming packet and an Acknowledge one in `refOverlapping`; in `REF` one mask tells
the kinds apart. -/
theorem markersExcludeEachOtherInRefNotInGeneral : Obligations.MarkersExcludeEachOtherInRefNotInGeneral := by
  refine ⟨⟨refOverlapping, 0x1100, .prog, .ack, by decide, by decide, by decide, by decide⟩, ?_⟩
  intro k k' w hk hk'
  rw [parseOf_success_iff] at hk hk'
  exact ref_kind_unique hk hk'

end Sys2Proof.Machine

namespace Sys2Proof.Machine

/-! ### The conditions an edge raises

An edge raises nothing but a `Glitch`, a dropped word, or the conditions of the word it completes, each from a class of its
own (spec/60_exceptions.md R180, R189). -/

theorem raise_of_silent {x : Condition} (h : x.silent = true) (s : State) : raise x s = .next s := by
  cases x with
  | glitch | incompleteWordDiscarded | overrun | zeroWord | kindMismatch => rfl
  | noData | misuse => cases h

theorem mem_publicationConditions_iff (s : State) (a : Nat) (x : Condition) :
    x ∈ publicationConditions s a ↔ x = .overrun ∧ s.slot ≠ 0 ∨ x = .zeroWord ∧ a = 0 := by
  simp only [publicationConditions, List.mem_append, List.mem_ite_nil_right, List.mem_singleton, slotValid_iff, and_comm]

theorem mem_edgeConditions_sync_iff (s : State) (x : Condition) :
    x ∈ edgeConditions s .sync ↔ x = .incompleteWordDiscarded ∧ 0 < s.idx := by
  simp only [edgeConditions, List.mem_ite_nil_right, List.mem_singleton, and_comm]

theorem mem_edgeConditions_glitch_iff (s : State) (x : Condition) : x ∈ edgeConditions s .glitch ↔ x = .glitch :=
  List.mem_singleton

theorem edgeConditions_bitClass (s : State) (b : Bool) :
    edgeConditions s (bitClass b) =
      if s.seq.completes s.cfg then publicationConditions s (shiftIn s.cfg s.acc b) else [] := by
  cases b <;> rfl

/-- A bit raises a condition only as the last of its word. -/
theorem mem_edgeConditions_bitClass_iff (s : State) (b : Bool) (x : Condition) :
    x ∈ edgeConditions s (bitClass b) ↔ (s.synced = true ∧ s.idx + 1 = s.cfg.n) ∧
      (x = .overrun ∧ s.slot ≠ 0 ∨ x = .zeroWord ∧ (2 * s.acc + b.toNat) % 2 ^ s.cfg.n = 0) := by
  rw [edgeConditions_bitClass, List.mem_ite_nil_right, completes_iff, mem_publicationConditions_iff, shiftIn_eq]
  rfl

theorem intervalClass_cases (c : IntervalClass) : c = .sync ∨ c = .glitch ∨ ∃ b, c = bitClass b := by
  cases c with
  | sync => exact .inl rfl
  | glitch => exact .inr (.inl rfl)
  | bit0 => exact .inr (.inr ⟨false, rfl⟩)
  | bit1 => exact .inr (.inr ⟨true, rfl⟩)

theorem bit0_or_bit1_iff (c : IntervalClass) : c = .bit0 ∨ c = .bit1 ↔ ∃ b, c = bitClass b := by
  rw [Bool.exists_bool]
  rfl

/-- All that an edge can raise, each condition with its class and its cause. -/
theorem mem_edgeConditions_iff (s : State) (c : IntervalClass) (x : Condition) :
    x ∈ edgeConditions s c ↔
      x = .glitch ∧ c = .glitch ∨ x = .incompleteWordDiscarded ∧ c = .sync ∧ 0 < s.idx ∨
      ∃ b, c = bitClass b ∧ (s.synced = true ∧ s.idx + 1 = s.cfg.n) ∧
        (x = .overrun ∧ s.slot ≠ 0 ∨ x = .zeroWord ∧ (2 * s.acc + b.toNat) % 2 ^ s.cfg.n = 0) := by
  obtain rfl | rfl | ⟨b, rfl⟩ := intervalClass_cases c
  · simp [mem_edgeConditions_sync_iff, bitClass]
  · simp [mem_edgeConditions_glitch_iff, bitClass]
  · rw [mem_edgeConditions_bitClass_iff]
    cases b <;> simp [bitClass]

theorem silent_of_mem_edgeConditions {s : State} {c : IntervalClass} {x : Condition} (h : x ∈ edgeConditions s c) :
    x.silent = true := by
  obtain ⟨rfl, -⟩ | ⟨rfl, -⟩ | ⟨b, -, -, ⟨rfl, -⟩ | ⟨rfl, -⟩⟩ := (mem_edgeConditions_iff s c x).1 h
  all_goals rfl

/-- Settles O34: each condition is one case of `mem_edgeConditions_iff`. -/
theorem edgeConditionsAreSilentAndExclusive : Obligations.EdgeConditionsAreSilentAndExclusive := by
  intro s c
  refine ⟨fun x hx => ?_, ?_, ?_, ?_, ?_⟩
  · have hsilent := silent_of_mem_edgeConditions hx
    exact ⟨hsilent, raise_of_silent hsilent⟩
  · simp [mem_edgeConditions_iff]
  · simp [mem_edgeConditions_iff]
  · simp [mem_edgeConditions_iff, bit0_or_bit1_iff, and_assoc]
  · simp [mem_edgeConditions_iff, and_assoc]

end Sys2Proof.Machine

namespace Sys2Proof.Machine

/-! ### RESET -/

/-- Settles O3: the value drawn for `last_edge_time` is cut to the counter's width, and the other fields are those that
`resetRule` writes. -/
theorem hardwareResetClearsAndEmitsNothing : Obligations.HardwareResetClearsAndEmitsNothing := fun s =>
  ⟨freeDraw s.draws % 2 ^ s.cfg.tw, Nat.mod_lt _ (Nat.two_pow_pos _), rfl⟩

end Sys2Proof.Machine

namespace Sys2Proof

/-! ### The command of a cycle -/

/-- The operations that issue a read, READ and READ_T. -/
def Instr.isRead : Instr → Bool
  | .read => true
  | .readT _ => true
  | _ => false

/-- Codes 4 and 5 are the reads (spec/30_encoding.md R86). -/
theorem commandInstr_isRead_iff (cmd arg : Nat) :
    (commandInstr cmd arg).isRead = true ↔ cmd % 8 = 4 ∨ cmd % 8 = 5 := by
  unfold commandInstr
  split <;> simp_all [Instr.isRead]

theorem commandInstr_not_parse (cmd arg : Nat) : (commandInstr cmd arg).isParse = false := by
  unfold commandInstr
  split <;> rfl

theorem commandInstr_ne_reset (cmd arg : Nat) : commandInstr cmd arg ≠ .reset := by
  unfold commandInstr
  split <;> nofun

theorem encode_commandInstr_format (cmd arg : Nat) : (encode (commandInstr cmd arg)).format = .command := by
  unfold commandInstr
  split <;> rfl

/-- The record of a command is read back as that command: its code is below 8, and READ_T carries its timeout above the
code (R86). -/
theorem decode_encode_commandInstr {P : Config} (q : Seq) (cmd : Nat) {arg : Nat} (harg : arg < 2 ^ P.tw) :
    decode P q (encode (commandInstr cmd arg)) = .ok (commandInstr cmd arg) := by
  unfold commandInstr
  split
  case h_6 =>
    have hcode : (5 + 8 * arg) % 8 = 5 := by omega
    have htmo : (5 + 8 * arg) / 8 = arg := by omega
    have hdecode : decode P q (encode (.readT arg)) = .ok (commandInstr ((5 + 8 * arg) % 8) ((5 + 8 * arg) / 8)) :=
      if_pos (Laws.EncodingFits.call_fits P.tw 5 arg (by decide) harg)
    rwa [hcode, htmo] at hdecode
  all_goals exact if_pos (Laws.EncodingFits.small_command _ (by decide))

theorem decode_encode_edge (P : Config) (q : Seq) (level : Bool) :
    decode P q (encode (.edge level)) = .ok (.edge level) := by
  cases level <;> rfl

end Sys2Proof

namespace Sys2Proof.Machine

/-! ### An edge does not read the script

The first event of a cycle with two runs while the script still holds the second. That first event is an EDGE, and no
part of it reads the script. -/

theorem expire_input_update (s : State) (l : List Stimulus) :
    expire { s with input := l } = { expire s with input := l } := by
  rw [expire_congr s { s with input := l } rfl rfl rfl]
  ext <;> simp

theorem resolve_input_update (s : State) (l : List Stimulus) :
    resolve { s with input := l } = { resolve s with input := l } := by
  rw [resolve_congr s { s with input := l } rfl rfl rfl rfl]
  ext <;> simp

theorem bitRule_input_update (b : Bool) (s : State) (l : List Stimulus) :
    bitRule b { s with input := l } = { bitRule b s with input := l } := by
  simp only [bitRule, apply_ite (fun u : State => { u with input := l })]
  rfl

theorem classRule_input_update (c : IntervalClass) (s : State) (l : List Stimulus) :
    classRule c { s with input := l } = { classRule c s with input := l } := by
  cases c with
  | sync | glitch => rfl
  | bit0 => exact bitRule_input_update false s l
  | bit1 => exact bitRule_input_update true s l

theorem deliverEdge_classRule_input_update (c : IntervalClass) (s : State) (l : List Stimulus) :
    deliverEdge (classRule c) { s with input := l } = { deliverEdge (classRule c) s with input := l } := by
  rcases deliverEdge_cases (classRule c) s with ⟨hrun, h⟩ | ⟨hstopped, h⟩ <;> rw [h]
  · exact (deliverEdge_of_running (s := { s with input := l }) hrun).trans (classRule_input_update c s.markEdge l)
  · exact deliverEdge_of_stopped (s := { s with input := l }) hstopped

theorem exec_edge_input_update {level : Bool} {s t : State} (h : exec (.edge level) s = .next t) (l : List Stimulus) :
    exec (.edge level) { s with input := l } = .next { t with input := l } := by
  rw [exec_edge, plainEvent_eq] at h ⊢
  cases h
  rw [expire_input_update, deliverEdge_classRule_input_update, resolve_input_update]
  rfl

/-! ### A cycle as a run of steps -/

theorem run_one (s : State) : Host.Core.run Sys2Proof.core 1 s = step s := by
  cases h : step s with
  | next t => exact run_of_next h
  | fault r => cases r
  | refused r => exact run_of_refused h

theorem execAll_cons_of_next {i : Instr} {is : List Instr} {s t : State} (h : exec i s = .next t) :
    execAll (i :: is) s = execAll is t := by
  simp [execAll, h]

theorem execAll_singleton (i : Instr) (s : State) : execAll [i] s = exec i s := by
  cases h : exec i s <;> simp [execAll, h]

/-- An operation presented at a time runs at that time, where its record comes at its stamp and is read back as it. -/
theorem step_presented {s : State} {i : Instr} {tau : Nat} {rest : List Stimulus} (hwf : s.cfg.wf = true)
    (hle : s.tau ≤ tau) (hformat : (encode i).format ≠ .interval) (hdecode : decode s.cfg s.seq (encode i) = .ok i) :
    step { s with input := ⟨tau, encode i⟩ :: rest } = exec i (arrive s tau rest) := by
  have htime := stimulusTime_of_not_interval (x := ⟨tau, encode i⟩)
    { s with input := ⟨tau, encode i⟩ :: rest } hformat
  have hstep := step_cons (s := { s with input := ⟨tau, encode i⟩ :: rest }) hwf rfl (by rwa [htime]) hdecode
  rwa [htime] at hstep

theorem run_presented_one {s : State} {i : Instr} {tau : Nat} (hwf : s.cfg.wf = true) (hle : s.tau ≤ tau)
    (hformat : (encode i).format ≠ .interval) (hdecode : decode s.cfg s.seq (encode i) = .ok i) :
    Host.Core.run Sys2Proof.core 1 { s with input := ⟨tau, encode i⟩ :: s.input } =
      execAll [i] { s with tau := tau } := by
  rw [run_one, step_presented hwf hle hformat hdecode, execAll_singleton]
  rfl

theorem run_presented_command {s : State} {arg tau : Nat} (cmd : Nat) (hwf : s.cfg.wf = true)
    (harg : arg < 2 ^ s.cfg.tw) (hle : s.tau ≤ tau) :
    Host.Core.run Sys2Proof.core 1 { s with input := ⟨tau, encode (commandInstr cmd arg)⟩ :: s.input } =
      execAll [commandInstr cmd arg] { s with tau := tau } :=
  run_presented_one hwf hle (by simp [encode_commandInstr_format]) (decode_encode_commandInstr s.seq cmd harg)

/-- The edge runs first, and the command meets the state the edge has left, at the same time. -/
theorem run_presented_edge_command {s : State} {arg tau : Nat} (level : Bool) (cmd : Nat) (hwf : s.cfg.wf = true)
    (harg : arg < 2 ^ s.cfg.tw) (hle : s.tau ≤ tau) :
    Host.Core.run Sys2Proof.core 2 { s with
        input := ⟨tau, encode (.edge level)⟩ :: ⟨tau, encode (commandInstr cmd arg)⟩ :: s.input } =
      execAll [.edge level, commandInstr cmd arg] { s with tau := tau } := by
  obtain ⟨t, ht⟩ : ∃ t, exec (.edge level) { s with tau := tau } = .next t := ⟨_, rfl⟩
  have hcfg : t.cfg = s.cfg := (exec_extends ht).cfg
  have htau : t.tau = tau := (exec_extends ht).tau
  have hinput : t.input = s.input := (exec_extends ht).input
  have hedge := step_presented (rest := ⟨tau, encode (commandInstr cmd arg)⟩ :: s.input) hwf hle (by simp [encode])
    (decode_encode_edge s.cfg s.seq level)
  have hcommand := run_presented_command (s := t) cmd (by rwa [hcfg]) (by rwa [hcfg]) htau.le
  have hsame : { t with tau := tau } = t := by rw [← htau]
  rw [run_of_next (hedge.trans (exec_edge_input_update ht _)), execAll_cons_of_next ht]
  rwa [hsame, hinput] at hcommand

theorem cycle_of_le {p : PortIn} {s : State} (h : s.tau ≤ p.tau) :
    cycle p s = execAll p.events { s with tau := p.tau } :=
  if_neg h.not_gt

/-- The three shapes of a cycle: in reset, without an edge, with one (R213). -/
theorem PortIn.events_cases (p : PortIn) :
    (p.rst = true ∧ p.events = [.reset]) ∨
      (p.rst = false ∧ p.edgeValid = false ∧ p.events = [commandInstr p.cmd.toNat p.cmdArg]) ∨
      (p.rst = false ∧ p.edgeValid = true ∧
        p.events = [.edge p.edgeLevel, commandInstr p.cmd.toNat p.cmdArg]) := by
  unfold PortIn.events
  cases p.rst <;> cases p.edgeValid <;> simp

theorem PortIn.cmdArg_lt {P : Config} {p : PortIn} (h : p.wf P = true) : p.cmdArg < 2 ^ P.tw := by
  simp only [PortIn.wf, Bool.and_eq_true, decide_eq_true_eq] at h
  exact h.1

/-- Settles O54, by the three shapes of a cycle. -/
theorem portCycleIsTheRunOfItsEvents : Obligations.PortCycleIsTheRunOfItsEvents := by
  intro p s hwf hp hle
  have harg := PortIn.cmdArg_lt hp
  rw [cycle_of_le hle, PortIn.stimuli]
  rcases p.events_cases with ⟨-, hevents⟩ | ⟨-, -, hevents⟩ | ⟨-, -, hevents⟩ <;> rw [hevents]
  · exact run_presented_one hwf hle nofun rfl
  · exact run_presented_command p.cmd.toNat hwf harg hle
  · exact run_presented_edge_command p.edgeLevel p.cmd.toNat hwf harg hle

end Sys2Proof.Machine

namespace Sys2Proof.Machine

/-! ### The read results of one event

Every part of an event but the issue of a read leaves the pending read waiting or ends it with one result, and after
that nothing is left to end. So the parts compose to an event, and such events to a cycle. -/

/-- From `s` to `t` the pending read waits and nothing is delivered, or it ends and its result is all that is
delivered. -/
inductive SettlesOnce (s t : State) : Prop where
  | waits (hrd : t.rd = s.rd) (hout : t.out = s.out)
  | ends {u : Nat} {r : ReadResult} (hpending : s.rd ≠ .none) (hrd : t.rd = .none) (hresult : r ≠ .word 0)
      (hout : t.out = s.out ++ [.done u r])

theorem SettlesOnce.refl (s : State) : SettlesOnce s s := .waits rfl rfl

theorem SettlesOnce.trans {s t u : State} (h : SettlesOnce s t) (h' : SettlesOnce t u) : SettlesOnce s u := by
  cases h with
  | waits hrd hout =>
    cases h' with
    | waits hrd' hout' => exact .waits (hrd'.trans hrd) (hout'.trans hout)
    | ends hpending hrd' hresult hout' => exact .ends (hrd ▸ hpending) hrd' hresult (hout ▸ hout')
  | ends hpending hrd hresult hout =>
    cases h' with
    | waits hrd' hout' => exact .ends hpending (hrd'.trans hrd) hresult (hout'.trans hout)
    | ends hpending' => exact absurd hrd hpending'

theorem SettlesOnce.of_idle {s t : State} (h : SettlesOnce s t) (hidle : s.rd = .none) :
    t.rd = .none ∧ t.out = s.out := by
  cases h with
  | waits hrd hout => exact ⟨hrd.trans hidle, hout⟩
  | ends hpending => exact absurd hidle hpending

theorem expire_settlesOnce (s : State) : SettlesOnce s (expire s) := by
  rcases expire_cases s with ⟨h, -⟩ | ⟨_, _, hrd, -, h⟩ <;> rw [h]
  · exact .refl s
  · exact .ends (r := .noData) (by simp [hrd]) rfl nofun rfl

/-- A word that `resolve` delivers is a held one, and the slot holds no word 0 (spec/30_encoding.md R87). -/
theorem resolve_settlesOnce (s : State) : SettlesOnce s (resolve s) := by
  rcases resolve_cases s with ⟨h, -⟩ | ⟨hrd, hslot, h⟩ | ⟨_, _, hrd, -, -, h⟩ <;> rw [h]
  · exact .refl s
  · exact .ends (r := .word s.slot) hrd rfl (by simpa using hslot) rfl
  · exact .ends (r := .noData) (by simp [hrd]) rfl nofun rfl

theorem stopRule_settlesOnce {s t : State} (h : stopRule s = .next t) : SettlesOnce s t := by
  rcases stopRule_cases s with ⟨-, h'⟩ | ⟨_, _, hrd, h'⟩ <;> cases h'.symm.trans h
  · exact .waits rfl rfl
  · exact .ends (r := .noData) (by simp [hrd]) rfl nofun rfl

theorem deliverEdge_settlesOnce {rule : State → State} (hkeeps : ∀ u, EdgeRuleKeeps u (rule u))
    (hout : ∀ u, (rule u).out = u.out) (s : State) : SettlesOnce s (deliverEdge rule s) := by
  rcases deliverEdge_cases rule s with ⟨-, h⟩ | ⟨-, h⟩ <;> rw [h]
  · exact .waits (hkeeps s.markEdge).rd (hout s.markEdge)
  · exact .refl s

theorem event_settlesOnce {rule : State → Result} (hrule : ∀ {u v}, rule u = .next v → SettlesOnce u v) {s t : State}
    (h : event rule s = .next t) : SettlesOnce s t := by
  obtain ⟨u, hu, rfl⟩ := event_next h
  exact ((expire_settlesOnce s).trans (hrule hu)).trans (resolve_settlesOnce u)

theorem plainEvent_settlesOnce {rule : State → State} (hrule : ∀ u, SettlesOnce u (rule u)) {s t : State}
    (h : plainEvent rule s = .next t) : SettlesOnce s t := by
  refine event_settlesOnce (rule := fun u => .next (rule u)) ?_ h
  rintro u _ ⟨⟩
  exact hrule u

/-- Every event that issues no read settles the pending one at most once. -/
theorem exec_settlesOnce {i : Instr} {s t : State} (hparse : i.isParse = false) (hreset : i ≠ .reset)
    (hread : i.isRead = false) (h : exec i s = .next t) : SettlesOnce s t := by
  cases i with
  | nop | reserved6 | reserved7 | tick => exact plainEvent_settlesOnce .refl h
  | start => exact plainEvent_settlesOnce (rule := (·.setRunning true)) (fun _ => .waits rfl rfl) h
  | stop => exact event_settlesOnce stopRule_settlesOnce h
  | clear => exact plainEvent_settlesOnce (rule := hunt) (fun _ => .waits rfl rfl) h
  | edge _ => exact plainEvent_settlesOnce (deliverEdge_settlesOnce (classRule_keeps _) (classRule_out _)) h
  | sync _ => exact plainEvent_settlesOnce (deliverEdge_settlesOnce syncRule_keeps syncRule_out) h
  | bit0 _ => exact plainEvent_settlesOnce (deliverEdge_settlesOnce (bitRule_keeps false) (bitRule_out false)) h
  | bit1 _ => exact plainEvent_settlesOnce (deliverEdge_settlesOnce (bitRule_keeps true) (bitRule_out true)) h
  | glitch _ => exact plainEvent_settlesOnce (deliverEdge_settlesOnce hunt_keeps hunt_out) h
  | publish a _ =>
    exact plainEvent_settlesOnce (deliverEdge_settlesOnce (publishRule_keeps a) (publishRule_out · a)) h
  | parseProg _ | parseCtrl _ | parsePace _ | parseAct _ | parseAck _ => cases hparse
  | reset => exact absurd rfl hreset
  | read | readT _ => cases hread

/-! ### The read results of one cycle -/

/-- Nothing is delivered from `s` to `t`, or one read result alone, and that is not the word 0. -/
def AtMostOneResult (s t : State) : Prop :=
  t.out = s.out ∨ ∃ u r, r ≠ .word 0 ∧ t.out = s.out ++ [.done u r]

theorem SettlesOnce.atMostOneResult {s t : State} (h : SettlesOnce s t) : AtMostOneResult s t := by
  cases h with
  | waits _ hout => exact .inl hout
  | ends _ _ hresult hout => exact .inr ⟨_, _, hresult, hout⟩

/-- Where no read is pending, only `resolve` can deliver, and only to the read just issued. -/
theorem exec_atMostOneResult_of_idle {i : Instr} {s t : State} (hparse : i.isParse = false) (hreset : i ≠ .reset)
    (hidle : s.rd = .none) (h : exec i s = .next t) : AtMostOneResult s t := by
  obtain ⟨v, hv, rfl⟩ := exec_ruleStep hparse hreset h
  rw [expire_of_none s hidle] at hv
  have hvout : v.out = s.out := by
    cases hv.read with
    | keeps _ hout => exact hout
    | issues _ _ hout => exact hout
    | ends htimed => cases hidle.symm.trans htimed
  rw [AtMostOneResult, ← hvout]
  exact (resolve_settlesOnce v).atMostOneResult

/-- A command that follows an event: a read finds none pending, any other settles what that event has left pending. -/
theorem SettlesOnce.command {s u t : State} {i : Instr} (h : SettlesOnce s u) (hparse : i.isParse = false)
    (hreset : i ≠ .reset) (hcontract : i.isRead = true → s.rd = .none) (hexec : exec i u = .next t) :
    AtMostOneResult s t := by
  cases hread : i.isRead with
  | true =>
    obtain ⟨hidle, hout⟩ := h.of_idle (hcontract hread)
    rw [AtMostOneResult, ← hout]
    exact exec_atMostOneResult_of_idle hparse hreset hidle hexec
  | false => exact (h.trans (exec_settlesOnce hparse hreset hread hexec)).atMostOneResult

/-- The caller's contract (R213): a cycle whose command is a read begins with none pending. -/
theorem PortIn.conforms_iff (p : PortIn) (s : State) :
    p.conforms s = true ↔ ((commandInstr p.cmd.toNat p.cmdArg).isRead = true → s.rd = .none) := by
  have hcode : (commandInstr p.cmd.toNat p.cmdArg).isRead = true ↔ p.cmd = 4#3 ∨ p.cmd = 5#3 := by
    rw [commandInstr_isRead_iff]
    bv_omega
  rw [hcode]
  by_cases hrd : s.rd = .none <;> simp [PortIn.conforms, State.rdBusy, hrd]

theorem execAll_cons_next {i : Instr} {is : List Instr} {s t : State} (h : execAll (i :: is) s = .next t) :
    ∃ u, exec i s = .next u ∧ execAll is u = .next t := by
  cases hu : exec i s with
  | next u => exact ⟨u, rfl, (execAll_cons_of_next hu).symm.trans h⟩
  | fault r => cases r
  | refused r => simp [execAll, hu] at h

/-- A cycle that runs is at a time not before the state's. -/
theorem execAll_of_cycle {p : PortIn} {s t : State} (h : cycle p s = .next t) :
    execAll p.events { s with tau := p.tau } = .next t := by
  rcases Nat.lt_or_ge p.tau s.tau with hlate | hle
  · cases (if_pos hlate).symm.trans h
  · exact (cycle_of_le hle).symm.trans h

theorem cycle_atMostOneResult {p : PortIn} {s t : State} (hconforms : p.conforms s = true) (h : cycle p s = .next t) :
    AtMostOneResult s t := by
  have hcommand {u : State} (hu : SettlesOnce s u) (hexec : execAll [commandInstr p.cmd.toNat p.cmdArg] u = .next t) :
      AtMostOneResult s t :=
    hu.command (commandInstr_not_parse ..) (commandInstr_ne_reset _ _) ((p.conforms_iff s).mp hconforms)
      ((execAll_singleton ..).symm.trans hexec)
  have hall := execAll_of_cycle h
  have htime : SettlesOnce s { s with tau := p.tau } := .waits rfl rfl
  rcases p.events_cases with ⟨-, hevents⟩ | ⟨-, -, hevents⟩ | ⟨-, -, hevents⟩ <;> rw [hevents] at hall
  · cases hall
    exact .inl rfl
  · exact hcommand htime hall
  · obtain ⟨u, hedge, hrest⟩ := execAll_cons_next hall
    exact hcommand (htime.trans (exec_settlesOnce (i := .edge p.edgeLevel) rfl nofun rfl hedge)) hrest

theorem doneBetween_of_out {s t : State} {l : List Output} (h : t.out = s.out ++ l) :
    doneBetween s t = readResults l := by
  simp [doneBetween, h]

theorem doneBetween_of_out_eq {s t : State} (h : t.out = s.out) : doneBetween s t = [] :=
  doneBetween_of_out (l := []) (by simp [h])

/-- Settles O55: what a conforming cycle delivers is nothing or one read result. -/
theorem atMostOneReadResultPerCycle : Obligations.AtMostOneReadResultPerCycle := by
  intro p s t hconforms h
  rcases cycle_atMostOneResult hconforms h with hout | ⟨u, r, -, hout⟩
  · simp [doneBetween_of_out_eq hout]
  · simp [doneBetween_of_out hout, readResults]

/-- Settles O60: the ports show the head of the cycle's read results, of which there is none or one. -/
theorem readOutputsShowTheResultOfTheCycle : Obligations.ReadOutputsShowTheResultOfTheCycle := by
  intro p s t hconforms h
  rcases cycle_atMostOneResult hconforms h with hout | ⟨u, r, hr, hout⟩
  · simp [portOut, doneBetween_of_out_eq hout, hout]
  · have hdone : doneBetween s t = [r] := doneBetween_of_out hout
    refine ⟨by simp [portOut, hdone], fun _ => ⟨u, ?_⟩⟩
    cases r with
    | noData => exact .inl ⟨hout, by simp [portOut, hdone]⟩
    | word w =>
      exact .inr ⟨w, by simpa using hr, hout, by simp [portOut, hdone], by simp [portOut, hdone, ReadResult.word?]⟩

end Sys2Proof.Machine

namespace Sys2Proof

open Machine (bitClass shiftIn_eq shiftIn_lt)
open Claims (classOp)

/-! ### The commands, events and calls that can be presented -/

theorem Instr.wf_of_wfIn {P : Config} {q : Seq} {i : Instr} (h : i.wfIn P q = true) : i.wf P = true :=
  (Bool.and_eq_true_iff.mp h).1

theorem readT_wfIn_iff (P : Config) (q : Seq) (tmo : Nat) : (Instr.readT tmo).wfIn P q = true ↔ tmo < 2 ^ P.tw := by
  simp [Instr.wfIn, Instr.wf]

/-- READ_T alone has an operand to bound (spec/42_read.md R142). -/
theorem commandInstr_wfIn {P : Config} (q : Seq) (cmd : Nat) {arg : Nat} (harg : arg < 2 ^ P.tw) :
    (commandInstr cmd arg).wfIn P q = true := by
  unfold commandInstr
  split
  case h_6 => exact (readT_wfIn_iff P q arg).mpr harg
  all_goals rfl

theorem parseInstr_wfIn_iff (P : Config) (q : Seq) (k : Kind) (w : Nat) :
    (parseInstr k w).wfIn P q = true ↔ w < 2 ^ P.n := by
  cases k <;> simp [parseInstr, Instr.wfIn, Instr.wf]

/-- A call record's function number stands below its word (R88), so both come apart again. -/
theorem decode_encode_parseInstr {P : Config} (q : Seq) (k : Kind) {w : Nat} (hw : w < 2 ^ P.n) :
    decode P q (encode (parseInstr k w)) = .ok (parseInstr k w) := by
  cases k <;> simp [parseInstr, encode, decode, decodeCall, Nat.add_mul_div_left, hw]

theorem decodeCommand_ok {P : Config} {bits : Nat} {i : Instr} (h : decodeCommand P bits = .ok i) :
    bits / 8 < 2 ^ P.tw ∧ i = commandInstr (bits % 8) (bits / 8) := by
  unfold decodeCommand at h
  split at h
  · next hbits =>
    rw [Nat.pow_add] at hbits
    cases h
    exact ⟨by omega, rfl⟩
  · cases h

theorem decodeEvent_ok {bits : Nat} {i : Instr} (h : decodeEvent bits = .ok i) :
    i = .reset ∨ i = .tick ∨ ∃ level, i = .edge level := by
  unfold decodeEvent at h
  split at h
  · cases h
    split
    · exact .inl rfl
    · split
      · exact .inr (.inr ⟨_, rfl⟩)
      · exact .inr (.inl rfl)
  · cases h

theorem decodeCall_ok {P : Config} {bits : Nat} {i : Instr} (h : decodeCall P bits = .ok i) :
    bits / 8 < 2 ^ P.n ∧ ∃ k, i = parseInstr k (bits / 8) := by
  unfold decodeCall at h
  split at h
  · next hw =>
    refine ⟨hw, ?_⟩
    split at h <;> cases h
    · exact ⟨.prog, rfl⟩
    · exact ⟨.ctrl, rfl⟩
    · exact ⟨.pace, rfl⟩
    · exact ⟨.act, rfl⟩
    · exact ⟨.ack, rfl⟩
  · cases h

/-! ### The intervals that can be presented

An operation of an interval can be presented exactly where the classifier gives the interval its class, and, for a bit,
the sequencing state says whether it completes the word. So these operations are the ones an interval record is read
back as. -/

theorem sync_wfIn_iff {P : Config} (hP : P.wf = true) (q : Seq) (dt : Nat) :
    (Instr.sync dt).wfIn P q = true ↔ classify P dt = .sync := by
  obtain ⟨hsync, -, -, -⟩ := classifyIsDecidedByTheWindows P dt hP
  simp [Instr.wfIn, Instr.wf, inWindow_iff, hsync]

theorem glitch_wfIn_iff {P : Config} (hP : P.wf = true) (q : Seq) (dt : Nat) :
    (Instr.glitch dt).wfIn P q = true ↔ dt < 2 ^ P.tw ∧ classify P dt = .glitch := by
  obtain ⟨-, -, -, hglitch⟩ := classifyIsDecidedByTheWindows P dt hP
  simp only [← inWindow_iff, Bool.not_eq_true] at hglitch
  simp [Instr.wfIn, Instr.wf, isGlitchInterval, hglitch, and_assoc]

theorem bit_wfIn_iff {P : Config} (hP : P.wf = true) (q : Seq) (b : Bool) (dt : Nat) :
    (classOp (bitClass b) dt).wfIn P q = true ↔ classify P dt = bitClass b ∧ q.completes P = false := by
  obtain ⟨-, h0, h1, -⟩ := classifyIsDecidedByTheWindows P dt hP
  cases b with
  | false => simp [bitClass, classOp, Instr.wfIn, Instr.wf, inWindow_iff, h0]
  | true => simp [bitClass, classOp, Instr.wfIn, Instr.wf, inWindow_iff, h1]

/-- The bit shifted in is the parity of the accumulator, for the word has at least one bit. -/
theorem shiftIn_mod_two {P : Config} (hP : P.wf = true) (acc : Nat) (b : Bool) : shiftIn P acc b % 2 = b.toNat := by
  have hn : P.n ≠ 0 := by
    have := Config.width_of_wf hP
    omega
  have hb := Bool.toNat_lt b
  rw [shiftIn_eq, Nat.mod_mod_of_dvd _ (dvd_pow_self 2 hn)]
  omega

/-- A word to be published names by its last bit the class of the interval that brings that bit (spec/40_classifier.md
R104 to R106). -/
theorem publish_wfIn_iff {P : Config} (hP : P.wf = true) (q : Seq) (a dt : Nat) :
    (Instr.publish a dt).wfIn P q = true ↔
      q.completes P = true ∧ ∃ b, classify P dt = bitClass b ∧ a = shiftIn P q.acc b := by
  obtain ⟨-, h0, h1, -⟩ := classifyIsDecidedByTheWindows P dt hP
  simp only [← inWindow_iff] at h0 h1
  simp only [Instr.wfIn, Instr.wf, Bool.and_eq_true, decide_eq_true_eq]
  constructor
  · rintro ⟨⟨-, hin⟩, hlast, ha⟩
    refine ⟨hlast, ?_⟩
    rcases Nat.mod_two_eq_zero_or_one a with hbit | hbit <;> rw [hbit] at ha hin
    · exact ⟨false, h0.mpr hin, ha.trans (shiftIn_eq P q.acc false).symm⟩
    · exact ⟨true, h1.mpr hin, ha.trans (shiftIn_eq P q.acc true).symm⟩
  · rintro ⟨hlast, b, hc, rfl⟩
    rw [shiftIn_mod_two hP, ← shiftIn_eq]
    refine ⟨⟨shiftIn_lt P q.acc b, ?_⟩, hlast, rfl⟩
    cases b with
    | false => exact h0.mp hc
    | true => exact h1.mp hc

/-- A bit's window lies below the SYNC window, and that within the counter (spec/30_encoding.md R73). -/
theorem interval_lt_of_bit {P : Config} {dt : Nat} {b : Bool} (hP : P.wf = true) (hc : classify P dt = bitClass b) :
    dt < 2 ^ P.tw := by
  obtain ⟨-, h0, h1, -⟩ := classifyIsDecidedByTheWindows P dt hP
  refine Laws.EncodingFits.interval_lt hP (.inr ?_)
  cases b with
  | false => exact .inl (h0.mp hc).2
  | true => exact .inr (h1.mp hc).2

theorem decodeBit_of_last {P : Config} {q : Seq} (b : Bool) (dt : Nat) (hlast : q.completes P = true) :
    decodeBit P q b dt = .publish (shiftIn P q.acc b) dt :=
  if_pos hlast

theorem decodeBit_of_more {P : Config} {q : Seq} (b : Bool) (dt : Nat) (hmore : q.completes P = false) :
    decodeBit P q b dt = classOp (bitClass b) dt := by
  rw [decodeBit, hmore]
  cases b <;> rfl

/-- Both answers of the decoder to a bit can be presented: PUBLISH where the bit completes the word, else the bit. -/
theorem decodeBit_wfIn {P : Config} {dt : Nat} {b : Bool} (hP : P.wf = true) (q : Seq)
    (hc : classify P dt = bitClass b) : (decodeBit P q b dt).wfIn P q = true := by
  cases hlast : q.completes P with
  | true =>
    rw [decodeBit_of_last b dt hlast]
    exact (publish_wfIn_iff hP q _ dt).mpr ⟨hlast, b, hc, rfl⟩
  | false =>
    rw [decodeBit_of_more b dt hlast]
    exact (bit_wfIn_iff hP q b dt).mpr ⟨hc, hlast⟩

theorem decodeInterval_wfIn {P : Config} {q : Seq} {dt : Nat} {i : Instr} (hP : P.wf = true)
    (h : decodeInterval P q dt = .ok i) : i.wfIn P q = true := by
  obtain ⟨hlt, ⟨hc, rfl⟩ | ⟨hc, rfl⟩ | ⟨hc, rfl⟩ | ⟨hc, rfl⟩⟩ := decodeInterval_ok h
  · exact (sync_wfIn_iff hP q dt).mpr hc
  · exact decodeBit_wfIn (b := false) hP q hc
  · exact decodeBit_wfIn (b := true) hP q hc
  · exact (glitch_wfIn_iff hP q dt).mpr ⟨hlt, hc⟩

theorem decode_interval_of_sync {P : Config} {dt : Nat} (q : Seq) (hdt : dt < 2 ^ P.tw) (hc : classify P dt = .sync) :
    decode P q ⟨.interval, dt⟩ = .ok (.sync dt) := by
  simp [decode, decodeInterval, hdt, hc]

theorem decode_interval_of_glitch {P : Config} {dt : Nat} (q : Seq) (hdt : dt < 2 ^ P.tw)
    (hc : classify P dt = .glitch) : decode P q ⟨.interval, dt⟩ = .ok (.glitch dt) := by
  simp [decode, decodeInterval, hdt, hc]

theorem decode_interval_of_bit {P : Config} {dt : Nat} {b : Bool} (hP : P.wf = true) (q : Seq)
    (hc : classify P dt = bitClass b) : decode P q ⟨.interval, dt⟩ = .ok (decodeBit P q b dt) := by
  have hdt := interval_lt_of_bit hP hc
  cases b <;> simp [decode, decodeInterval, hdt, hc, bitClass]

theorem encode_classOp (c : IntervalClass) (dt : Nat) : encode (classOp c dt) = ⟨.interval, dt⟩ := by
  cases c <;> rfl

theorem decode_encode_bit {P : Config} {q : Seq} {b : Bool} {dt : Nat} (hP : P.wf = true)
    (h : (classOp (bitClass b) dt).wfIn P q = true) :
    decode P q (encode (classOp (bitClass b) dt)) = .ok (classOp (bitClass b) dt) := by
  obtain ⟨hc, hmore⟩ := (bit_wfIn_iff hP q b dt).mp h
  rw [encode_classOp, decode_interval_of_bit hP q hc, decodeBit_of_more b dt hmore]

theorem decode_encode_publish {P : Config} {q : Seq} {a dt : Nat} (hP : P.wf = true)
    (h : (Instr.publish a dt).wfIn P q = true) : decode P q (encode (.publish a dt)) = .ok (.publish a dt) := by
  obtain ⟨hlast, b, hc, rfl⟩ := (publish_wfIn_iff hP q a dt).mp h
  exact (decode_interval_of_bit hP q hc).trans (congrArg _ (decodeBit_of_last b dt hlast))

/-! ### Decode and encode -/

/-- Settles O7: a command by its code, an interval by its class and what the sequencing state makes of a bit, a parse by
its function number. -/
theorem decodeOfEncodeIsTheOperation : Obligations.DecodeOfEncodeIsTheOperation := by
  intro P q i hP h
  have command (cmd : Nat) := decode_encode_commandInstr (P := P) q cmd (Nat.two_pow_pos P.tw)
  have parse (k : Kind) {w : Nat} (hw : (parseInstr k w).wfIn P q = true) :=
    decode_encode_parseInstr q k ((parseInstr_wfIn_iff P q k w).mp hw)
  cases i with
  | nop => exact command 0
  | start => exact command 1
  | stop => exact command 2
  | clear => exact command 3
  | read => exact command 4
  | readT tmo => exact decode_encode_commandInstr q 5 ((readT_wfIn_iff P q tmo).mp h)
  | reserved6 => exact command 6
  | reserved7 => exact command 7
  | tick | reset => rfl
  | edge level => exact decode_encode_edge P q level
  | sync dt =>
    exact decode_interval_of_sync q (Laws.EncodingFits.sync dt P hP (Instr.wf_of_wfIn h)) ((sync_wfIn_iff hP q dt).mp h)
  | bit0 dt => exact decode_encode_bit (b := false) hP h
  | bit1 dt => exact decode_encode_bit (b := true) hP h
  | glitch dt =>
    obtain ⟨hdt, hc⟩ := (glitch_wfIn_iff hP q dt).mp h
    exact decode_interval_of_glitch q hdt hc
  | publish a dt => exact decode_encode_publish hP h
  | parseProg w => exact parse .prog h
  | parseCtrl w => exact parse .ctrl h
  | parsePace w => exact parse .pace h
  | parseAct w => exact parse .act h
  | parseAck w => exact parse .ack h

/-- Settles O8, by the format of the record. -/
theorem decodedOperationsAreWellFormed : Obligations.DecodedOperationsAreWellFormed := by
  rintro P q ⟨format, bits⟩ i hP h
  cases format with
  | command =>
    obtain ⟨harg, rfl⟩ := decodeCommand_ok h
    exact commandInstr_wfIn q _ harg
  | event => obtain rfl | rfl | ⟨level, rfl⟩ := decodeEvent_ok h <;> rfl
  | interval => exact decodeInterval_wfIn hP h
  | packet =>
    obtain ⟨hw, k, -, rfl⟩ := decodePacket_ok h
    exact (parseInstr_wfIn_iff P q k bits).mpr hw
  | call =>
    obtain ⟨hw, k, rfl⟩ := decodeCall_ok h
    exact (parseInstr_wfIn_iff P q k _).mpr hw

end Sys2Proof

namespace Sys2Proof.Machine

/-! ### The state at reset and the step on a decoded record -/

/-- Settles O2: the values of R34 meet every clause, and `State.reset` is the case of REF and 0. -/
theorem resetMeetsTheInvariant : Obligations.ResetMeetsTheInvariant :=
  ⟨fun _ _ tau script => resetOf_inv tau script, resetOf_inv 0 [] (by decide) (Nat.two_pow_pos REF.tw)⟩

theorem nextStimulus_nil {s : State} (h : s.input = []) : nextStimulus s = ⟨s.tau + 1, encode .nop⟩ := by
  simp [nextStimulus, h, encode]

/-- Settles O4: the step on a decoded record, then the two shapes of the script. -/
theorem stepRunsTheDecodedOperation : Obligations.StepRunsTheDecodedOperation :=
  ⟨fun _ _ => step_of_decoded, fun _ _ _ => nextStimulus_cons, fun _ => nextStimulus_nil⟩

end Sys2Proof.Machine
